-- ==== Sys2Proof/Word.lean ====
section
/-! DEFINITION. The words of the block: a machine word (a W-bit value of 00_scope.md R8 in 64 bits), a byte of guest
memory, and the 80-bit pattern of an FPU slot (10_state.md R31). -/

namespace Sys2Proof

/-- A W-bit value (00_scope.md R8), W = 32 or 64, in 64 bits: when W = 32 bits 63..32 are 0 (log 2). The data ports
`a`, `b` and `out` have this width too (30_encoding.md R71). -/
abbrev Word := BitVec 64

/-- A byte of guest memory (20_memory.md R52). -/
abbrev Byte := BitVec 8

/-- An 80-bit pattern, never interpreted (43_fpu_stack.md R198). -/
abbrev Slot := BitVec 80

end Sys2Proof
end

