-- ==== Sys2Proof/Config.lean ====
section
/-! DEFINITION. The parameters of the block (00_scope.md R8), their defaults, and the free values: what the spec leaves
undefined after a command that goes on. A free value has no body, so no proof can see what it is. -/

namespace Sys2Proof

/-- The two legal values of the parameter `W` (00_scope.md R8, D3). -/
inductive Width where
  | w32
  | w64
  deriving DecidableEq, Repr

/-- The parameters of 00_scope.md R8 that are OPEN. `NREGS` follows from `W`; `TAGW` is 8. -/
structure Params where
  /-- `W`. -/
  w : Width
  /-- `BOUND`, one truth value per register index. -/
  bound : Vector Bool 16
  /-- `STRICT_RESTORE_CONTRACT`. -/
  strictRestore : Bool
  /-- `BOUNDARY_UNITS`. -/
  boundaryUnits : Bool
  /-- `RESET_GPR[r]`. -/
  resetGpr : Vector Word 16
  /-- `RESET_IP`. -/
  resetIp : Word
  /-- `IRQ_HARD`. -/
  irqHard : BitVec 32
  /-- `IRQ_NMI`. -/
  irqNmi : BitVec 32
  /-- `IRQ_INIT`. -/
  irqInit : BitVec 32
  /-- `IRQ_SIPI`. -/
  irqSipi : BitVec 32
  /-- `FEAT_LMA_BIT`, 0..63. -/
  lmaBit : BitVec 6
  /-- `FEAT_SVME_BIT`, 0..63. -/
  svmeBit : BitVec 6
  deriving DecidableEq, Repr

/-- The defaults of 00_scope.md R8; for `W`, which has none, the 32 of 95_test_vectors.md (log 1). -/
def Params.default : Params where
  w := .w32
  bound := #v[true, true, true, true, true, true, true, true,
    false, false, false, false, false, false, false, false]
  strictRestore := true
  boundaryUnits := true
  resetGpr := Vector.replicate 16 0
  resetIp := 0x0000FFF0
  irqHard := 0x002
  irqNmi := 0x200
  irqInit := 0x400
  irqSipi := 0x800
  lmaBit := 10
  svmeBit := 12

namespace Config

/-- FREE VALUE (30_encoding.md R71, U12; log 4): what `out` holds after the command numbered n, when that command does
not drive it. -/
opaque freeOut : Nat → Word

/-- FREE VALUE (30_encoding.md R71, U12, U14; log 4): what `out80` holds after the command numbered n, when that
command does not drive it. -/
opaque freeOut80 : Nat → Slot

/-- FREE VALUE (40_register_file.md R106; log 11): which of several unwritten bound registers the UNWRITTEN_LOCAL of the
command numbered n names. -/
opaque freeIndex : Nat → Nat

end Config

end Sys2Proof
end

