-- ==== Sys2Proof/Machine/State.lean ====
section
/-! DEFINITION. The state of the block and of what stands on its ports (10_state.md; 30_encoding.md R71), as plain data,
and the state after reset (10_state.md R45). Every field is listed in INVENTORY.md with the rule that names it. -/

namespace Sys2Proof.Machine

/-- Who issues a command (60_exceptions.md R228). -/
inductive Agent where
  | owner
  | other
  deriving DecidableEq, Repr

/-- The direction of a guest-memory access (60_exceptions.md R222). -/
inductive Dir where
  | read
  | write
  deriving DecidableEq, Repr

/-- The guest-memory collaborator's answer to one access (20_memory.md R50, R51, R58; U13, U15; log 13). It is an
input: the block is not told why an access fails. -/
structure Answer where
  /-- Bytes that other agents (or a device) write while the access runs: `(j, (address, byte))` lands just before the
  access's own byte j. -/
  disturbance : List (Nat × Host.Cell)
  /-- `none`: the access completes. `some landed`: it fails; of a write, byte j took its new value iff bit j of
  `landed` is 1 (20_memory.md R51). -/
  failure : Option (BitVec 8)
  deriving DecidableEq, Repr

/-- An access that completes and is not disturbed. -/
def Answer.plain : Answer := { disturbance := [], failure := none }

/-- What stands on the input ports in one step (30_encoding.md R71; 60_exceptions.md R228): the issuing agent, the
command word, the data ports, and the collaborator's answers to the command's first and second access. -/
structure Command where
  agent : Agent
  cmd : BitVec 32
  a : BitVec 64
  b : BitVec 64
  v : Slot
  addr : Word
  first : Answer
  second : Answer
  deriving DecidableEq, Repr

/-- A command word on the ports, from the owner, every data port 0, its accesses completing. -/
def Command.ofWord (w : BitVec 32) : Command :=
  { agent := .owner, cmd := w, a := 0, b := 0, v := 0, addr := 0, first := .plain, second := .plain }

/-- What the outside world can do between two commands' effects (INVENTORY.md, Host interface). -/
inductive Event where
  /-- A command is presented (30_encoding.md R70). -/
  | command (c : Command)
  /-- Another agent writes a byte of guest memory (20_memory.md R59). -/
  | guestWrite (a : Word) (b : Byte)
  /-- The platform applies reset again (70_reset_and_hazards.md R260). -/
  | platformReset
  deriving DecidableEq, Repr

/-- A model fault (60_exceptions.md R221): a caller error. -/
inductive ModelFault where
  | illegalCmd (cmd : BitVec 32)
  | unwrittenLocal (r : Nat)
  | restoreContract
  deriving DecidableEq, Repr

/-- What the port `fault` reports (60_exceptions.md R221, R222). -/
inductive PortFault where
  | model (f : ModelFault)
  | memFault (addr : Word) (n : Nat) (dir : Dir)
  deriving DecidableEq, Repr

/-- A request on the memory port (30_encoding.md R71; 20_memory.md R50, R51): where, how many bytes, and the value of a
write. -/
inductive Request where
  | read (addr : Word) (n : Nat)
  | write (addr : Word) (n : Nat) (v : BitVec 64)
  deriving DecidableEq, Repr

/-- Guest memory: the bytes that differ from what an unlisted address reads as, at strictly rising addresses. -/
abbrev Memory := List Host.Cell

/-- The reasons a step stops with a fault: NONE. Every fault of the spec is an outcome after which the block goes on
(60_exceptions.md R221, R222; "No case of the block is stuck", 93_implementation_defined.md): a next state (log 6). -/
inductive Fault where
  deriving DecidableEq, Repr

/-- The reasons a step is refused. -/
inductive Refusal where
  /-- Raised by exec for an instruction without a meaning; safe. No arm raises it: every instruction has its meaning. -/
  | notModelled (mnemonic : String)
  deriving DecidableEq, Repr

/-- The state. -/
structure State where
  /-- The parameters (00_scope.md R8): fixed for the machine, written by no step (log 1). -/
  cfg : Params
  /-- `C[r]` (10_state.md R21). -/
  gpr : Vector Word 16
  /-- `ip` (10_state.md R23). -/
  ip : Word
  /-- `L[r]` (10_state.md R24). -/
  loc : Vector Word 16
  /-- `lvalid[r]` (10_state.md R24). -/
  lvalid : Vector Bool 16
  /-- `tag` (10_state.md R25). -/
  tag : BitVec 8
  /-- `src` (10_state.md R26). -/
  src : Word
  /-- `dst` (10_state.md R26). -/
  dst : Word
  /-- `restore_pending` (10_state.md R27). -/
  restorePending : Bool
  /-- `base` (10_state.md R28). -/
  base : BitVec 32
  /-- `df` (10_state.md R30). -/
  df : BitVec 32
  /-- `slot[k]` (10_state.md R31). -/
  slots : Vector Slot 8
  /-- `top` (10_state.md R32). -/
  top : BitVec 3
  /-- `ftag[k]` is bit k: 0 valid, 1 empty (10_state.md R33). -/
  ftag : BitVec 8
  /-- `irq` (10_state.md R40). -/
  irq : BitVec 32
  /-- `halted` (10_state.md R41). -/
  halted : Bool
  /-- `feat` (10_state.md R42). -/
  feat : BitVec 64
  /-- `lma` (10_state.md R43). -/
  lma : Bool
  /-- `svme` (10_state.md R43). -/
  svme : Bool
  /-- The fault log, oldest first (60_exceptions.md R221). -/
  faultLog : List ModelFault
  /-- Guest memory, the collaborator's (20_memory.md R52). -/
  mem : Memory
  /-- The pending inputs, oldest first (log 8). -/
  inputs : List Event
  /-- What the input ports hold: the command last presented (30_encoding.md R71). -/
  port : Command
  /-- The accesses the last command issued on the memory port, in order (20_memory.md R57). -/
  memPort : List Request
  /-- The result port `out` (30_encoding.md R71). -/
  out : BitVec 64
  /-- The result port `out80` (30_encoding.md R71). -/
  out80 : Slot
  /-- The port `fault` (30_encoding.md R71). -/
  fault : Option PortFault
  /-- The model's own: how many commands have drawn free values (log 4). -/
  draws : Nat
  deriving DecidableEq, Repr

/-- The block of parameters `p` right after reset (10_state.md R45); the ports before any command, nothing pending, and
guest memory with nothing listed (log 3, log 5, log 8, log 12). -/
def State.atReset (p : Params) : State where
  cfg := p
  gpr := p.resetGpr
  ip := p.resetIp
  loc := Vector.replicate 16 0
  lvalid := Vector.replicate 16 false
  tag := 1
  src := 0
  dst := 0
  restorePending := false
  base := 0x00000002
  df := 1
  slots := Vector.replicate 8 0
  top := 0
  ftag := 0xFF
  irq := 0
  halted := false
  feat := 0
  lma := false
  svme := false
  faultLog := []
  mem := []
  inputs := []
  port := .ofWord 0
  memPort := []
  out := 0
  out80 := 0
  fault := none
  draws := 0

/-- The machine right after reset, with the default parameters of 00_scope.md R8. -/
def State.reset : State := State.atReset Params.default

end Sys2Proof.Machine
end

