-- ==== Sys2Proof/Machine/Operands.lean ====
section
/-! DEFINITION. The operand forms (30_encoding.md R72, R74): what follows from the parameters, the truncation of a data port
to its destination, and the register and stack indices. -/

namespace Sys2Proof.Machine

/-- `NREGS` (00_scope.md R8). -/
def nregs (p : Params) : Nat :=
  match p.w with
  | .w32 => 8
  | .w64 => 16

/-- `trunc_W` (00_scope.md R12), zero-extended again to the 64 bits of a word. -/
def truncW (p : Params) (v : BitVec 64) : Word :=
  match p.w with
  | .w32 => (v.setWidth 32).setWidth 64
  | .w64 => v

/-- Whether register r has a fast local binding: `r` in `BOUND`, which has no index at or above `NREGS`
(00_scope.md R8; 40_register_file.md R103). -/
def isBound (p : Params) (r : BitVec 4) : Bool :=
  decide (r.toNat < nregs p) && p.bound[r.toNat]'r.isLt

/-- Port `a` truncated to a W-bit destination (30_encoding.md R74). -/
def portA (s : State) : Word := truncW s.cfg s.port.a

/-- Port `b` truncated to a W-bit destination (30_encoding.md R74). -/
def portB (s : State) : Word := truncW s.cfg s.port.b

/-- Port `a` truncated to a 32-bit destination (30_encoding.md R74). -/
def portA32 (s : State) : BitVec 32 := s.port.a.setWidth 32

/-- Port `b` truncated to 32 bits, the mask of an EFLAGS write (30_encoding.md R71). -/
def portB32 (s : State) : BitVec 32 := s.port.b.setWidth 32

/-- Port `addr`, W bits wide (30_encoding.md R71). -/
def portAddr (s : State) : Word := truncW s.cfg s.port.addr

/-- The physical slot that `ST(i)` names, `(top + i) mod 8` (10_state.md R34). -/
def stIndex (s : State) (i : BitVec 3) : BitVec 3 := s.top + i

end Sys2Proof.Machine
end

