-- ==== Sys2Proof/Machine/Flags.lean ====
section
/-! DEFINITION. The flag computations: the materialization function of the condition-code engine
(41_condition_codes.md R120 to R136), the EFLAGS masks (10_state.md R29) and the wake condition (60_exceptions.md R232). -/

namespace Sys2Proof.Machine

/-- `CC_MASK` (10_state.md R29): CF, PF, AF, ZF, SF, OF. -/
def ccMask : BitVec 32 := 0x000008D5

/-- `DF_MASK` (10_state.md R29). -/
def dfMask : BitVec 32 := 0x00000400

/-- `OWNED_MASK` (10_state.md R29): the bits never stored in `base`. -/
def ownedMask : BitVec 32 := ccMask ||| dfMask

/-- `parity8` (00_scope.md R14): an even number of 1 bits. -/
def parity8 (x : BitVec 8) : Bool :=
  !(x.getLsbD 0 ^^ x.getLsbD 1 ^^ x.getLsbD 2 ^^ x.getLsbD 3 ^^ x.getLsbD 4 ^^ x.getLsbD 5 ^^ x.getLsbD 6 ^^ x.getLsbD 7)

/-- The flag at bit position k of the mask. -/
def flagBit (k : Nat) (f : Bool) : BitVec 32 := (BitVec.ofBool f).setWidth 32 <<< k

/-- The flag mask of R120: `CF | PF<<2 | AF<<4 | ZF<<6 | SF<<7 | OF<<11`. -/
def flagMask (cf pf af zf sf of : Bool) : BitVec 32 :=
  flagBit 0 cf ||| flagBit 2 pf ||| flagBit 4 af ||| flagBit 6 zf ||| flagBit 7 sf ||| flagBit 11 of

/-- The flag mask with PF, ZF and SF of the result d (R122) and the family's CF, AF and OF. -/
def resultFlags {n : Nat} (d : BitVec n) (cf af of : Bool) : BitVec 32 :=
  flagMask cf (parity8 (d.setWidth 8)) af (decide (d = 0)) d.msb of

/-- The families of R76 that have a width. -/
inductive Family where
  | mul | add | adc | sub | sbb | logic | inc | dec | shl | sar
  deriving DecidableEq, Repr

/-- The operand widths of R76: B, W, L, Q. -/
inductive OpWidth where
  | b | w | l | q
  deriving DecidableEq, Repr

/-- N of R77: 8, 16, 32, 64. -/
def opBits : OpWidth → Nat
  | .b => 8
  | .w => 16
  | .l => 32
  | .q => 64

/-- MUL (R126). The carry tests the whole word `src`, not its low N bits (D27). -/
def mulFlags {n : Nat} (src : Word) (d : BitVec n) : BitVec 32 :=
  resultFlags d (decide (src ≠ 0)) false (decide (src ≠ 0))

/-- ADD (R127). -/
def addFlags {n : Nat} (s d : BitVec n) : BitVec 32 :=
  let a := s
  let b := d - s
  resultFlags d (d.ult a) ((d ^^^ a ^^^ b).getLsbD 4) ((a ^^^ b ^^^ BitVec.allOnes n) &&& (a ^^^ d)).msb

/-- ADC (R128). -/
def adcFlags {n : Nat} (s d : BitVec n) : BitVec 32 :=
  let a := s
  let b := d - s - 1
  resultFlags d (d.ule a) ((d ^^^ a ^^^ b).getLsbD 4) ((a ^^^ b ^^^ BitVec.allOnes n) &&& (a ^^^ d)).msb

/-- SUB (R129). -/
def subFlags {n : Nat} (s d : BitVec n) : BitVec 32 :=
  let b := s
  let a := d + s
  resultFlags d (a.ult b) ((d ^^^ a ^^^ b).getLsbD 4) ((a ^^^ b) &&& (a ^^^ d)).msb

/-- SBB (R130). -/
def sbbFlags {n : Nat} (s d : BitVec n) : BitVec 32 :=
  let b := s
  let a := d + s + 1
  resultFlags d (a.ule b) ((d ^^^ a ^^^ b).getLsbD 4) ((a ^^^ b) &&& (a ^^^ d)).msb

/-- LOGIC (R131). -/
def logicFlags {n : Nat} (d : BitVec n) : BitVec 32 := resultFlags d false false false

/-- INC (R132). The old carry is bit 0 of `src`. -/
def incFlags {n : Nat} (src : Word) (d : BitVec n) : BitVec 32 :=
  let a := d - 1
  resultFlags d (src.getLsbD 0) ((d ^^^ a ^^^ 1).getLsbD 4) (decide (d = BitVec.intMin n))

/-- DEC (R133). The old carry is bit 0 of `src`. -/
def decFlags {n : Nat} (src : Word) (d : BitVec n) : BitVec 32 :=
  let a := d + 1
  resultFlags d (src.getLsbD 0) ((d ^^^ a ^^^ 1).getLsbD 4) (decide (d = BitVec.intMin n - 1))

/-- SHL (R134). -/
def shlFlags {n : Nat} (s d : BitVec n) : BitVec 32 := resultFlags d s.msb false (s ^^^ d).msb

/-- SAR, for both kinds of right shift (R135). -/
def sarFlags {n : Nat} (s d : BitVec n) : BitVec 32 := resultFlags d (s.getLsbD 0) false (s ^^^ d).msb

/-- A family's mask at width n, on `trunc_N(src)` and `trunc_N(dst)` (R122). -/
def familyFlags (f : Family) (n : Nat) (src dst : Word) : BitVec 32 :=
  let s := src.setWidth n
  let d := dst.setWidth n
  match f with
  | .mul => mulFlags src d
  | .add => addFlags s d
  | .adc => adcFlags s d
  | .sub => subFlags s d
  | .sbb => sbbFlags s d
  | .logic => logicFlags d
  | .inc => incFlags src d
  | .dec => decFlags src d
  | .shl => shlFlags s d
  | .sar => sarFlags s d

/-- What a tag asks of the flag decoder. -/
inductive TagOp where
  | dynamic
  | direct
  | arith (f : Family) (k : OpWidth)
  deriving DecidableEq, Repr

/-- The mask under one tag: 0 for DYNAMIC (R123), the stored mask for DIRECT (R125), 0 for a quadword tag when W = 32
(R124), else the family's. -/
def materialize (p : Params) (op : TagOp) (src dst : Word) : BitVec 32 :=
  match op with
  | .dynamic => 0
  | .direct => src.setWidth 32 &&& ccMask
  | .arith f k => if k = .q ∧ p.w = .w32 then 0 else familyFlags f (opBits k) src dst

/-- The family number `(t - 2) / 4` of R77, in the order of R76. -/
def familyOf (n : Nat) : Option Family :=
  match n with
  | 0 => some .mul
  | 1 => some .add
  | 2 => some .adc
  | 3 => some .sub
  | 4 => some .sbb
  | 5 => some .logic
  | 6 => some .inc
  | 7 => some .dec
  | 8 => some .shl
  | 9 => some .sar
  | _ => none

/-- The width index `(t - 2) mod 4` of R77. -/
def opWidthOf (n : Nat) : OpWidth :=
  match n with
  | 0 => .b
  | 1 => .w
  | 2 => .l
  | _ => .q

/-- The tag register's value read by R77; none for 42..255. -/
def tagOp (t : BitVec 8) : Option TagOp :=
  if t = 0 then some .dynamic
  else if t = 1 then some .direct
  else (familyOf ((t.toNat - 2) / 4)).map fun f => .arith f (opWidthOf ((t.toNat - 2) % 4))

/-- `cc_all(tag, src, dst)` (R121): total; 0 for the tags of R123. -/
def ccAll (p : Params) (tag : BitVec 8) (src dst : Word) : BitVec 32 :=
  match tagOp tag with
  | some op => materialize p op src dst
  | none => 0

/-- `cc_c(tag, src, dst)` (R136). -/
def ccC (p : Params) (tag : BitVec 8) (src dst : Word) : BitVec 32 := ccAll p tag src dst &&& 1

/-- The direction word of EFLAGS.DF (10_state.md R30): -1 for 1, +1 for 0. -/
def dfWord (d : Bool) : BitVec 32 := if d then 0xFFFFFFFF else 1

/-- A masked write of the base word (42_eflags.md R162 (c), R165). -/
def baseMerge (base v m : BitVec 32) : BitVec 32 := (base &&& ~~~m) ||| (v &&& m &&& ~~~ownedMask) ||| 0x00000002

/-- The packed EFLAGS value (42_eflags.md R160). -/
def packEflags (s : State) : BitVec 32 := s.base ||| ccAll s.cfg s.tag s.src s.dst ||| (s.df &&& dfMask)

/-- `has_pending_work()` (60_exceptions.md R232). -/
def hasPendingWork (s : State) : Bool :=
  (decide (s.irq &&& s.cfg.irqHard ≠ 0) && s.base.getLsbD 9)
    || decide (s.irq &&& s.cfg.irqNmi ≠ 0)
    || decide (s.irq &&& s.cfg.irqInit ≠ 0)
    || decide (s.irq &&& s.cfg.irqSipi ≠ 0)

end Sys2Proof.Machine
end

