-- ==== Sys2Proof/Machine/Ops.lean ====
section
/-! DEFINITION. The named operations over registers, ports and guest memory that the meanings share. Ending a command with a
fault (60_exceptions.md R221, R222) is ONE operation, `State.raise`: this block has no other exception, no trap entry and
no trap return (R220, R225, R226). -/

namespace Sys2Proof.Machine

/-- The outcome of a command. -/
abbrev Result := Host.Outcome State Fault Refusal

/-! ### How a command ends: the result ports (30_encoding.md R71) -/

/-- Success, no result port driven: `out` and `out80` are free (U12; log 4). -/
def State.done (s : State) : State :=
  { s with
    out := Config.freeOut s.draws
    out80 := Config.freeOut80 s.draws
    fault := none
    draws := s.draws + 1 }

/-- Success, `out <- v`; `out80` is free (U12; log 4). -/
def State.driveOut (s : State) (v : BitVec 64) : State :=
  { s with
    out := v
    out80 := Config.freeOut80 s.draws
    fault := none
    draws := s.draws + 1 }

/-- Success, `out80 <- v`; `out` is free (U12; log 4). -/
def State.driveOut80 (s : State) (v : Slot) : State :=
  { s with
    out := Config.freeOut s.draws
    out80 := v
    fault := none
    draws := s.draws + 1 }

/-- The fault log after `raise f`: a model fault is recorded, a reported memory fault is not (60_exceptions.md R221). -/
def logged (l : List ModelFault) (f : PortFault) : List ModelFault :=
  match f with
  | .model m => l ++ [m]
  | .memFault _ _ _ => l

/-- `raise F` (60_exceptions.md R221, R222): the fault stands on the port `fault`, a model fault is recorded, no block state
changes, and the block goes on (log 6). -/
def State.raise (s : State) (f : PortFault) : State :=
  { s with
    out := Config.freeOut s.draws
    out80 := Config.freeOut80 s.draws
    fault := some f
    faultLog := logged s.faultLog f
    draws := s.draws + 1 }

/-- `raise ILLEGAL_CMD(cmd)` with the command word on the port `cmd` (60_exceptions.md R221). -/
def State.illegal (s : State) : State := s.raise (.model (.illegalCmd s.port.cmd))

/-! ### Registers -/

/-- `C[r]` (10_state.md R21). -/
def State.gprGet (s : State) (r : BitVec 4) : Word := s.gpr[r.toNat]'r.isLt

/-- `C[r] <- v` (10_state.md R21). -/
def State.gprSet (s : State) (r : BitVec 4) (v : Word) : State := { s with gpr := s.gpr.set r.toNat v r.isLt }

/-- `L[r]` (10_state.md R24). -/
def State.locGet (s : State) (r : BitVec 4) : Word := s.loc[r.toNat]'r.isLt

/-- `lvalid[r]` (10_state.md R24). -/
def State.locValid (s : State) (r : BitVec 4) : Bool := s.lvalid[r.toNat]'r.isLt

/-- `L[r] <- v; lvalid[r] <- 1` (40_register_file.md R104). -/
def State.locSet (s : State) (r : BitVec 4) (v : Word) : State :=
  { s with loc := s.loc.set r.toNat v r.isLt, lvalid := s.lvalid.set r.toNat true r.isLt }

/-- For each r in BOUND, entry r of `new`; every other entry of `old` (40_register_file.md R105, R106). -/
def copyBound {α : Type} (p : Params) (new old : Vector α 16) : Vector α 16 :=
  Vector.ofFn fun r => if isBound p (BitVec.ofFin r) then new[r] else old[r]

/-- The bound registers whose local copy was never written, in rising order (40_register_file.md R106). -/
def State.unwritten (s : State) : List (BitVec 4) :=
  ((List.range 16).map (BitVec.ofNat 4)).filter fun r => isBound s.cfg r && !s.locValid r

/-- Which of the unwritten registers UNWRITTEN_LOCAL names: the one, or a free choice among several
(40_register_file.md R106; log 11). -/
def pickUnwritten (draw : Nat) (r : BitVec 4) (more : List (BitVec 4)) : BitVec 4 :=
  match more with
  | [] => r
  | _ :: _ => (r :: more).getD (Config.freeIndex draw % (more.length + 1)) r

/-- The environment-to-local copy (40_register_file.md R105). -/
def State.mirrorIn (s : State) : State :=
  { s with
    loc := copyBound s.cfg s.gpr s.loc
    lvalid := copyBound s.cfg (Vector.replicate 16 true) s.lvalid }

/-- The local-to-environment copy (40_register_file.md R106). -/
def State.mirrorOut (s : State) : State := { s with gpr := copyBound s.cfg s.loc s.gpr }

/-! ### Condition codes and EFLAGS -/

/-- Record an operation for deferred flags (41_condition_codes.md R138): write tag (which also ends a pending restore), src
and dst as enabled. -/
def State.ccRecord (s : State) (wt ws wd : Bool) (t : BitVec 8) (a b : Word) : State :=
  { s with
    tag := if wt then t else s.tag
    restorePending := if wt then false else s.restorePending
    src := if ws then a else s.src
    dst := if wd then b else s.dst }

/-- `check_restore_contract()` fails (41_condition_codes.md R142). -/
def State.contractBroken (s : State) : Bool := s.cfg.strictRestore && s.restorePending

/-- A flag read (41_condition_codes.md R140, R141; 42_eflags.md R160): the contract check, then `out <- zext_64(v)`. -/
def flagRead (s : State) (v : BitVec 32) : Result :=
  if s.contractBroken then .next (s.raise (.model .restoreContract)) else .next (s.driveOut (v.setWidth 64))

/-- An EFLAGS restore of the value v under the mask m (42_eflags.md R162, R163): the six flags to src and DF to df whatever the
mask, the other bits into base under it. The raw form leaves the tag and sets the pending contract; the direct form sets the
tag and leaves nothing pending. -/
def State.restoreEflags (s : State) (direct : Bool) (v m : BitVec 32) : State :=
  { s with
    src := (v &&& ccMask).setWidth 64
    df := dfWord (v.getLsbD 10)
    base := baseMerge s.base v m
    tag := if direct then 1 else s.tag
    restorePending := !direct }

/-- The flag decoder run on one tag (41_condition_codes.md R121): `out` takes the mask of the tag for the words in `src`
and `dst`. It reads no other state and changes none, so no contract is checked (log 9). -/
def runTag (s : State) (op : TagOp) : Result :=
  .next (s.driveOut ((materialize s.cfg op s.src s.dst).setWidth 64))

/-! ### FPU stack -/

/-- `slot[k]` (10_state.md R31). -/
def State.slotGet (s : State) (k : BitVec 3) : Slot := s.slots[k.toNat]'k.isLt

/-- `slot[k] <- v` (10_state.md R31). -/
def State.slotSet (s : State) (k : BitVec 3) (v : Slot) : State := { s with slots := s.slots.set k.toNat v k.isLt }

/-- The tags with `ftag[k]` empty (1) or valid (0) (10_state.md R33). -/
def ftagSet (f : BitVec 8) (k : BitVec 3) (empty : Bool) : BitVec 8 :=
  if empty then f ||| (1#8 <<< k.toNat) else f &&& ~~~(1#8 <<< k.toNat)

/-- The push of 43_fpu_stack.md R190: index and tag in one step, no slot written. -/
def State.push (s : State) : State := { s with top := s.top - 1, ftag := ftagSet s.ftag (s.top - 1) false }

/-- The pop of 43_fpu_stack.md R191: tag and index in one step, no slot written. -/
def State.pop (s : State) : State := { s with top := s.top + 1, ftag := ftagSet s.ftag s.top true }

/-- The FPU state word of 43_fpu_stack.md R194: `top` in bits 2:0, `ftag[k]` in bit 8 + k, every other bit 0. -/
def fpuWord (s : State) : BitVec 64 := 0#48 ++ s.ftag ++ 0#5 ++ s.top

/-- Index and tags from an FPU state word in one step (43_fpu_stack.md R195). -/
def State.fpuLoadWord (s : State) (a : BitVec 64) : State :=
  { s with top := a.extractLsb' 0 3, ftag := a.extractLsb' 8 8 }

/-! ### Boundary units -/

/-- A command of the boundary units: illegal when they are absent (30_encoding.md R80). -/
def onBoundary (s : State) (r : Result) : Result := if s.cfg.boundaryUnits then r else .next s.illegal

/-! ### Guest memory (20_memory.md) -/

/-- What an unlisted byte of guest memory reads as (log 12). -/
def unlisted : Byte := 0

/-- The byte at an address. -/
def Memory.read (m : Memory) (a : Nat) : Byte :=
  match m with
  | [] => unlisted
  | (k, c) :: rest => if a = k then c else Memory.read rest a

/-- The memory with one byte written, in canonical form. -/
def Memory.write (m : Memory) (a : Nat) (b : Byte) : Memory :=
  match m with
  | [] => if b = unlisted then [] else [(a, b)]
  | (k, c) :: rest =>
    if a < k then (if b = unlisted then (k, c) :: rest else (a, b) :: (k, c) :: rest)
    else if a = k then (if b = unlisted then rest else (a, b) :: rest)
    else (k, c) :: Memory.write rest a b

/-- Whether an address is above a bound, where there is one. -/
def above (lo : Option Nat) (a : Nat) : Bool :=
  match lo with
  | none => true
  | some l => decide (l < a)

/-- Addresses strictly rising, all above `lo`, and no entry equal to what an unlisted address reads as. -/
def Memory.wfFrom (lo : Option Nat) (m : Memory) : Bool :=
  match m with
  | [] => true
  | (k, c) :: rest => above lo k && decide (c ≠ unlisted) && Memory.wfFrom (some k) rest

/-- The canonical form. -/
def Memory.wf (m : Memory) : Bool := Memory.wfFrom none m

/-- The address of byte j of an access at `a`, modulo 2^W (20_memory.md R50, R51). -/
def byteAddr (p : Params) (a : Word) (j : Nat) : Nat := (truncW p (a + BitVec.ofNat 64 j)).toNat

/-- The bytes that other agents write just before byte j of an access (20_memory.md R58; log 13). An address is a W-bit
one. -/
def disturb (p : Params) (d : List (Nat × Host.Cell)) (j : Nat) (m : Memory) : Memory :=
  match d with
  | [] => m
  | (k, a, b) :: rest =>
    disturb p rest j (if k = j then Memory.write m (truncW p (BitVec.ofNat 64 a)).toNat b else m)

/-- The first n bytes of a read at `a`, lowest address first, assembled little-endian (20_memory.md R50, R53), and the
memory after what other agents wrote meanwhile. -/
def readBytes (p : Params) (d : List (Nat × Host.Cell)) (a : Word) (n : Nat) (m : Memory) : Memory × BitVec 64 :=
  match n with
  | 0 => (m, 0)
  | j + 1 =>
    let r := readBytes p d a j m
    let m' := disturb p d j r.1
    (m', r.2 ||| ((Memory.read m' (byteAddr p a j)).setWidth 64 <<< (8 * j)))

/-- The first n bytes of a write of `v` at `a`, lowest address first, little-endian (20_memory.md R51, R53): byte j is written
iff bit j of `landed` is 1. -/
def writeBytes (p : Params) (d : List (Nat × Host.Cell)) (landed : BitVec 8) (a : Word) (v : BitVec 64) (n : Nat)
    (m : Memory) : Memory :=
  match n with
  | 0 => m
  | j + 1 =>
    let m' := disturb p d j (writeBytes p d landed a v j m)
    if landed.getLsbD j then Memory.write m' (byteAddr p a j) (v.extractLsb' (8 * j) 8) else m'

/-- `MemRead(a, n)` (20_memory.md R50): the request is issued, and the collaborator's answer gives the value or `none` for
a memory fault. -/
def State.memRead (s : State) (ans : Answer) (a : Word) (n : Nat) : State × Option (BitVec 64) :=
  let r := readBytes s.cfg ans.disturbance a n s.mem
  ({ s with mem := r.1, memPort := s.memPort ++ [.read a n] },
    match ans.failure with
    | none => some r.2
    | some _ => none)

/-- `MemWrite(a, n, v)` (20_memory.md R51): the request is issued; true when it completes. When it fails, each byte is old or
new as the answer says (U13). -/
def State.memWrite (s : State) (ans : Answer) (a : Word) (n : Nat) (v : BitVec 64) : State × Bool :=
  let landed := ans.failure.getD (BitVec.allOnes 8)
  ({ s with mem := writeBytes s.cfg ans.disturbance landed a v n s.mem, memPort := s.memPort ++ [.write a n v] },
    ans.failure.isNone)

/-- The address of the second access of an 80-bit transfer, `(A + 8) mod 2^W` (20_memory.md R56). -/
def secondAddr (s : State) : Word := truncW s.cfg (portAddr s + 8)

/-! ### Reset -/

/-- Reset applied again by the platform (70_reset_and_hazards.md R260): a new block of the same parameters; guest memory,
the inputs still pending and what stands on the input ports are not the block's and stay (log 15). -/
def State.resetAgain (s : State) : State :=
  { State.atReset s.cfg with
    mem := s.mem
    inputs := s.inputs
    port := s.port
    out := Config.freeOut s.draws
    out80 := Config.freeOut80 s.draws
    draws := s.draws + 1 }

end Sys2Proof.Machine
end

