-- ==== Sys2Proof/Machine/Boundary.lean ====
section
/-! DEFINITION. The boundary units: the extended feature loader and the readiness/halt state machine (60_exceptions.md R230
to R239). -/

namespace Sys2Proof.Machine

/-- FEAT_LD (R230). -/
def execFeatLd (s : State) : Result :=
  onBoundary s (.next { s with
    feat := s.port.a
    lma := s.port.a.getLsbD s.cfg.lmaBit.toNat
    svme := s.port.a.getLsbD s.cfg.svmeBit.toNat }.done)

/-- FEAT_RD (R231): SEL 0 reads feat, SEL 1 the word with lma in bit 0 and svme in bit 1; SEL 2 and 3 are illegal. -/
def execFeatRd (sel : BitVec 2) (s : State) : Result :=
  onBoundary s
    (if sel = 0 then .next (s.driveOut s.feat)
    else if sel = 1 then .next (s.driveOut ((BitVec.ofBool s.svme ++ BitVec.ofBool s.lma).setWidth 64))
    else .next s.illegal)

/-- HAS_WORK (R233). -/
def execHasWork (s : State) : Result :=
  onBoundary s (.next (s.driveOut ((BitVec.ofBool (hasPendingWork s)).setWidth 64)))

/-- CHK_HALT (R234): 0 is running, 1 is the halted sentinel; a halted CPU with pending work wakes. -/
def execChkHalt (s : State) : Result :=
  onBoundary s
    (if !s.halted then .next (s.driveOut 0)
    else if hasPendingWork s then .next ({ s with halted := false }.driveOut 0)
    else .next (s.driveOut 1))

/-- IRQ_OR (R236). -/
def execIrqOr (s : State) : Result := onBoundary s (.next { s with irq := s.irq ||| portA32 s }.done)

/-- IRQ_CLR (R237). -/
def execIrqClr (s : State) : Result := onBoundary s (.next { s with irq := s.irq &&& ~~~portA32 s }.done)

/-- IRQ_RD (R238). -/
def execIrqRd (s : State) : Result := onBoundary s (.next (s.driveOut (s.irq.setWidth 64)))

/-- HALT_SET (R235). -/
def execHaltSet (s : State) : Result := onBoundary s (.next { s with halted := true }.done)

end Sys2Proof.Machine
end

