-- ==== Sys2Proof/Machine/ConditionCodes.lean ====
section
/-! DEFINITION. The commands of the condition-code engine (41_condition_codes.md R138 to R142). -/

namespace Sys2Proof.Machine

/-- CC_WR (R138). -/
def execCcWr (wt ws wd : Bool) (t : BitVec 8) (s : State) : Result :=
  .next (s.ccRecord wt ws wd t (portA s) (portB s)).done

/-- CC_RD_RAW (R139): SEL 0, 1, 2 read tag, src, dst; SEL 3 is illegal. No flag read, so no contract check. -/
def execCcRdRaw (sel : BitVec 2) (s : State) : Result :=
  if sel = 0 then .next (s.driveOut (s.tag.setWidth 64))
  else if sel = 1 then .next (s.driveOut s.src)
  else if sel = 2 then .next (s.driveOut s.dst)
  else .next s.illegal

/-- CC_FLAGS (R140). -/
def execCcFlags (s : State) : Result := flagRead s (ccAll s.cfg s.tag s.src s.dst)

/-- CC_CARRY (R141). -/
def execCcCarry (s : State) : Result := flagRead s (ccC s.cfg s.tag s.src s.dst)

end Sys2Proof.Machine
end

