-- ==== Sys2Proof/Machine/Eflags.lean ====
section
/-! DEFINITION. The EFLAGS pack/unpack multiplexer (42_eflags.md). -/

namespace Sys2Proof.Machine

/-- EFL_PACK (R160, R161). -/
def execEflPack (s : State) : Result := flagRead s (packEflags s)

/-- EFL_RESTORE (R162): the tag stays, and the restore is pending. -/
def execEflRestore (s : State) : Result := .next (s.restoreEflags false (portA32 s) (portB32 s)).done

/-- EFL_RESTORE_D (R163): the tag becomes DIRECT, and nothing is pending. -/
def execEflRestoreD (s : State) : Result := .next (s.restoreEflags true (portA32 s) (portB32 s)).done

/-- EFL_BASE_RD (R164). -/
def execEflBaseRd (s : State) : Result := .next (s.driveOut (s.base.setWidth 64))

/-- EFL_BASE_WR (R165). -/
def execEflBaseWr (s : State) : Result := .next { s with base := baseMerge s.base (portA32 s) (portB32 s) }.done

/-- DF_RD (R166): sign-extended. -/
def execDfRd (s : State) : Result := .next (s.driveOut (s.df.signExtend 64))

/-- DF_WR (R167). -/
def execDfWr (d : Bool) (s : State) : Result := .next { s with df := dfWord d }.done

end Sys2Proof.Machine
end

