-- ==== Sys2Proof/Machine/FlagDecoder.lean ====
section
/-! DEFINITION. The instructions of the flag decoder: one materialization per tag value of 30_encoding.md R76
(41_condition_codes.md R121 to R135). CC_FLAGS runs the one that the register `tag` names. -/

namespace Sys2Proof.Machine

/-- TAG_DYNAMIC (R123): 0. -/
def execTagDynamic (s : State) : Result := runTag s .dynamic

/-- TAG_DIRECT (R125): the mask held in `src`. -/
def execTagDirect (s : State) : Result := runTag s .direct

/-- TAG_MULB (R126): multiply, 8 bits. -/
def execTagMulb (s : State) : Result := runTag s (.arith .mul .b)

/-- TAG_MULW (R126): multiply, 16 bits. -/
def execTagMulw (s : State) : Result := runTag s (.arith .mul .w)

/-- TAG_MULL (R126): multiply, 32 bits. -/
def execTagMull (s : State) : Result := runTag s (.arith .mul .l)

/-- TAG_MULQ (R126, R124): multiply, 64 bits. -/
def execTagMulq (s : State) : Result := runTag s (.arith .mul .q)

/-- TAG_ADDB (R127): add, 8 bits. -/
def execTagAddb (s : State) : Result := runTag s (.arith .add .b)

/-- TAG_ADDW (R127): add, 16 bits. -/
def execTagAddw (s : State) : Result := runTag s (.arith .add .w)

/-- TAG_ADDL (R127): add, 32 bits. -/
def execTagAddl (s : State) : Result := runTag s (.arith .add .l)

/-- TAG_ADDQ (R127, R124): add, 64 bits. -/
def execTagAddq (s : State) : Result := runTag s (.arith .add .q)

/-- TAG_ADCB (R128): add with carry-in 1, 8 bits. -/
def execTagAdcb (s : State) : Result := runTag s (.arith .adc .b)

/-- TAG_ADCW (R128): add with carry-in 1, 16 bits. -/
def execTagAdcw (s : State) : Result := runTag s (.arith .adc .w)

/-- TAG_ADCL (R128): add with carry-in 1, 32 bits. -/
def execTagAdcl (s : State) : Result := runTag s (.arith .adc .l)

/-- TAG_ADCQ (R128, R124): add with carry-in 1, 64 bits. -/
def execTagAdcq (s : State) : Result := runTag s (.arith .adc .q)

/-- TAG_SUBB (R129): subtract, 8 bits. -/
def execTagSubb (s : State) : Result := runTag s (.arith .sub .b)

/-- TAG_SUBW (R129): subtract, 16 bits. -/
def execTagSubw (s : State) : Result := runTag s (.arith .sub .w)

/-- TAG_SUBL (R129): subtract, 32 bits. -/
def execTagSubl (s : State) : Result := runTag s (.arith .sub .l)

/-- TAG_SUBQ (R129, R124): subtract, 64 bits. -/
def execTagSubq (s : State) : Result := runTag s (.arith .sub .q)

/-- TAG_SBBB (R130): subtract with borrow-in 1, 8 bits. -/
def execTagSbbb (s : State) : Result := runTag s (.arith .sbb .b)

/-- TAG_SBBW (R130): subtract with borrow-in 1, 16 bits. -/
def execTagSbbw (s : State) : Result := runTag s (.arith .sbb .w)

/-- TAG_SBBL (R130): subtract with borrow-in 1, 32 bits. -/
def execTagSbbl (s : State) : Result := runTag s (.arith .sbb .l)

/-- TAG_SBBQ (R130, R124): subtract with borrow-in 1, 64 bits. -/
def execTagSbbq (s : State) : Result := runTag s (.arith .sbb .q)

/-- TAG_LOGICB (R131): logical operations, 8 bits. -/
def execTagLogicb (s : State) : Result := runTag s (.arith .logic .b)

/-- TAG_LOGICW (R131): logical operations, 16 bits. -/
def execTagLogicw (s : State) : Result := runTag s (.arith .logic .w)

/-- TAG_LOGICL (R131): logical operations, 32 bits. -/
def execTagLogicl (s : State) : Result := runTag s (.arith .logic .l)

/-- TAG_LOGICQ (R131, R124): logical operations, 64 bits. -/
def execTagLogicq (s : State) : Result := runTag s (.arith .logic .q)

/-- TAG_INCB (R132): increment, 8 bits. -/
def execTagIncb (s : State) : Result := runTag s (.arith .inc .b)

/-- TAG_INCW (R132): increment, 16 bits. -/
def execTagIncw (s : State) : Result := runTag s (.arith .inc .w)

/-- TAG_INCL (R132): increment, 32 bits. -/
def execTagIncl (s : State) : Result := runTag s (.arith .inc .l)

/-- TAG_INCQ (R132, R124): increment, 64 bits. -/
def execTagIncq (s : State) : Result := runTag s (.arith .inc .q)

/-- TAG_DECB (R133): decrement, 8 bits. -/
def execTagDecb (s : State) : Result := runTag s (.arith .dec .b)

/-- TAG_DECW (R133): decrement, 16 bits. -/
def execTagDecw (s : State) : Result := runTag s (.arith .dec .w)

/-- TAG_DECL (R133): decrement, 32 bits. -/
def execTagDecl (s : State) : Result := runTag s (.arith .dec .l)

/-- TAG_DECQ (R133, R124): decrement, 64 bits. -/
def execTagDecq (s : State) : Result := runTag s (.arith .dec .q)

/-- TAG_SHLB (R134): shift left, 8 bits. -/
def execTagShlb (s : State) : Result := runTag s (.arith .shl .b)

/-- TAG_SHLW (R134): shift left, 16 bits. -/
def execTagShlw (s : State) : Result := runTag s (.arith .shl .w)

/-- TAG_SHLL (R134): shift left, 32 bits. -/
def execTagShll (s : State) : Result := runTag s (.arith .shl .l)

/-- TAG_SHLQ (R134, R124): shift left, 64 bits. -/
def execTagShlq (s : State) : Result := runTag s (.arith .shl .q)

/-- TAG_SARB (R135): shift right, 8 bits. -/
def execTagSarb (s : State) : Result := runTag s (.arith .sar .b)

/-- TAG_SARW (R135): shift right, 16 bits. -/
def execTagSarw (s : State) : Result := runTag s (.arith .sar .w)

/-- TAG_SARL (R135): shift right, 32 bits. -/
def execTagSarl (s : State) : Result := runTag s (.arith .sar .l)

/-- TAG_SARQ (R135, R124): shift right, 64 bits. -/
def execTagSarq (s : State) : Result := runTag s (.arith .sar .q)

end Sys2Proof.Machine
end

