-- ==== Sys2Proof/Machine/Fpu.lean ====
section
/-! DEFINITION. The FPU circular stack manager (43_fpu_stack.md). No command checks the stack (R199). -/

namespace Sys2Proof.Machine

/-- FPU_PUSH (R190). -/
def execFpuPush (s : State) : Result := .next s.push.done

/-- FPU_POP (R191). -/
def execFpuPop (s : State) : Result := .next s.pop.done

/-- FPU_RD (R192). -/
def execFpuRd (i : BitVec 3) (s : State) : Result := .next (s.driveOut80 (s.slotGet (stIndex s i)))

/-- FPU_WR (R193). -/
def execFpuWr (i : BitVec 3) (s : State) : Result := .next (s.slotSet (stIndex s i) s.port.v).done

/-- FPU_ST_RD (R194). -/
def execFpuStRd (s : State) : Result := .next (s.driveOut (fpuWord s))

/-- FPU_ST_WR (R195). -/
def execFpuStWr (s : State) : Result := .next (s.fpuLoadWord s.port.a).done

/-- FPU_LD80 (R196): 8 bytes at A, then 2 bytes at A + 8; the second access is not issued when the first faults
(20_memory.md R57). -/
def execFpuLd80 (s : State) : Result :=
  let a := portAddr s
  let a8 := secondAddr s
  match s.memRead s.port.first a 8 with
  | (s1, none) => .next (s1.raise (.memFault a 8 .read))
  | (s1, some lo) =>
    match s1.memRead s.port.second a8 2 with
    | (s2, none) => .next (s2.raise (.memFault a8 2 .read))
    | (s2, some hi) => .next (s2.driveOut80 (hi.setWidth 16 ++ lo))

/-- FPU_ST80 (R197, R201): 8 bytes at A, then 2 bytes at A + 8; a first write that completed is not undone. -/
def execFpuSt80 (s : State) : Result :=
  let a := portAddr s
  let a8 := secondAddr s
  match s.memWrite s.port.first a 8 (s.port.v.extractLsb' 0 64) with
  | (s1, false) => .next (s1.raise (.memFault a 8 .write))
  | (s1, true) =>
    match s1.memWrite s.port.second a8 2 ((s.port.v.extractLsb' 64 16).setWidth 64) with
    | (s2, false) => .next (s2.raise (.memFault a8 2 .write))
    | (s2, true) => .next s2.done

end Sys2Proof.Machine
end

