-- ==== Sys2Proof/Machine/Pseudo.lean ====
section
/-! DEFINITION. The pseudo-commands (30_encoding.md R85), each the effect of the command word it is another name of. -/

namespace Sys2Proof.Machine

/-- CC_DIRECT: `CC_WR.t DIRECT` (R85, 41_condition_codes.md R138). -/
def execCcDirect (s : State) : Result := .next (s.ccRecord true false false 1 (portA s) (portB s)).done

/-- CLD: `DF_WR 0` (R85, 42_eflags.md R167). -/
def execCld (s : State) : Result := .next { s with df := dfWord false }.done

/-- STD: `DF_WR 1` (R85, 42_eflags.md R167). -/
def execStd (s : State) : Result := .next { s with df := dfWord true }.done

/-- FPU_RESET_STATE: `FPU_ST_WR` with port `a` = 0xFF00 (R85, 43_fpu_stack.md R195). -/
def execFpuResetState (s : State) : Result := .next (s.fpuLoadWord 0xFF00).done

end Sys2Proof.Machine
end

