-- ==== Sys2Proof/Machine/RegisterFile.lean ====
section
/-! DEFINITION. The register-file array and mirror commands (40_register_file.md). -/

namespace Sys2Proof.Machine

/-- NOP (R100). -/
def execNop (s : State) : Result := .next s.done

/-- GPR_RD (R101). -/
def execGprRd (r : BitVec 4) (s : State) : Result :=
  if nregs s.cfg ≤ r.toNat then .next s.illegal else .next (s.driveOut (s.gprGet r))

/-- GPR_WR (R102). -/
def execGprWr (r : BitVec 4) (s : State) : Result :=
  if nregs s.cfg ≤ r.toNat then .next s.illegal else .next (s.gprSet r (portA s)).done

/-- LOC_RD (R103). -/
def execLocRd (r : BitVec 4) (s : State) : Result :=
  if !isBound s.cfg r then .next s.illegal
  else if !s.locValid r then .next (s.raise (.model (.unwrittenLocal r.toNat)))
  else .next (s.driveOut (s.locGet r))

/-- LOC_WR (R104). -/
def execLocWr (r : BitVec 4) (s : State) : Result :=
  if !isBound s.cfg r then .next s.illegal else .next (s.locSet r (portA s)).done

/-- SYNC_IN (R105). -/
def execSyncIn (s : State) : Result := .next s.mirrorIn.done

/-- SYNC_OUT (R106): every bound register is checked before any is written. -/
def execSyncOut (s : State) : Result :=
  match s.unwritten with
  | [] => .next s.mirrorOut.done
  | r :: more => .next (s.raise (.model (.unwrittenLocal (pickUnwritten s.draws r more).toNat)))

/-- IP_RD (R107). -/
def execIpRd (s : State) : Result := .next (s.driveOut s.ip)

/-- IP_WR (R108). -/
def execIpWr (s : State) : Result := .next { s with ip := portA s }.done

end Sys2Proof.Machine
end

