-- ==== Sys2Proof/Syntax.lean ====
section
/-! DEFINITION. The instructions: one constructor per row of opcode_table.json, in the table's order. The 36 commands of
30_encoding.md R75, the 4 pseudo-commands of R85, and the 42 condition-code tags of R76, which are the opcodes of the
flag decoder (41_condition_codes.md R121). -/

namespace Sys2Proof

/-- An instruction. Operands are the fields of 30_encoding.md R72. -/
inductive Instr where
  /- The commands, 30_encoding.md R75. -/
  | nop
  | gprRd (r : BitVec 4)
  | gprWr (r : BitVec 4)
  | locRd (r : BitVec 4)
  | locWr (r : BitVec 4)
  | syncIn
  | syncOut
  | ipRd
  | ipWr
  /-- The three write enables of `WE` (tag, src, dst) and the field `TAG`. -/
  | ccWr (wt ws wd : Bool) (t : BitVec 8)
  | ccRdRaw (sel : BitVec 2)
  | ccFlags
  | ccCarry
  | eflPack
  | eflRestore
  | eflRestoreD
  | eflBaseRd
  | eflBaseWr
  | dfRd
  | dfWr (d : Bool)
  | fpuPush
  | fpuPop
  | fpuRd (i : BitVec 3)
  | fpuWr (i : BitVec 3)
  | fpuStRd
  | fpuStWr
  | fpuLd80
  | fpuSt80
  | featLd
  | featRd (sel : BitVec 2)
  | hasWork
  | chkHalt
  | irqOr
  | irqClr
  | irqRd
  | haltSet
  /- The pseudo-commands, 30_encoding.md R85. -/
  | ccDirect
  | cld
  | std
  | fpuResetState
  /- The opcodes of the flag decoder, 30_encoding.md R76. -/
  | tagDynamic
  | tagDirect
  | tagMulb
  | tagMulw
  | tagMull
  | tagMulq
  | tagAddb
  | tagAddw
  | tagAddl
  | tagAddq
  | tagAdcb
  | tagAdcw
  | tagAdcl
  | tagAdcq
  | tagSubb
  | tagSubw
  | tagSubl
  | tagSubq
  | tagSbbb
  | tagSbbw
  | tagSbbl
  | tagSbbq
  | tagLogicb
  | tagLogicw
  | tagLogicl
  | tagLogicq
  | tagIncb
  | tagIncw
  | tagIncl
  | tagIncq
  | tagDecb
  | tagDecw
  | tagDecl
  | tagDecq
  | tagShlb
  | tagShlw
  | tagShll
  | tagShlq
  | tagSarb
  | tagSarw
  | tagSarl
  | tagSarq
  deriving DecidableEq, Repr

end Sys2Proof
end

