-- ==== Sys2Proof/Machine/Dispatch.lean ====
section
/-! DEFINITION. The dispatch: each instruction's meaning. -/

namespace Sys2Proof.Machine

def exec (i : Instr) (s : State) : Host.Outcome State Fault Refusal :=
  match i with
  | .nop => Sys2Proof.Machine.execNop s
  | .gprRd r => Sys2Proof.Machine.execGprRd r s
  | .gprWr r => Sys2Proof.Machine.execGprWr r s
  | .locRd r => Sys2Proof.Machine.execLocRd r s
  | .locWr r => Sys2Proof.Machine.execLocWr r s
  | .syncIn => Sys2Proof.Machine.execSyncIn s
  | .syncOut => Sys2Proof.Machine.execSyncOut s
  | .ipRd => Sys2Proof.Machine.execIpRd s
  | .ipWr => Sys2Proof.Machine.execIpWr s
  | .ccWr wt ws wd t => Sys2Proof.Machine.execCcWr wt ws wd t s
  | .ccRdRaw sel => Sys2Proof.Machine.execCcRdRaw sel s
  | .ccFlags => Sys2Proof.Machine.execCcFlags s
  | .ccCarry => Sys2Proof.Machine.execCcCarry s
  | .eflPack => Sys2Proof.Machine.execEflPack s
  | .eflRestore => Sys2Proof.Machine.execEflRestore s
  | .eflRestoreD => Sys2Proof.Machine.execEflRestoreD s
  | .eflBaseRd => Sys2Proof.Machine.execEflBaseRd s
  | .eflBaseWr => Sys2Proof.Machine.execEflBaseWr s
  | .dfRd => Sys2Proof.Machine.execDfRd s
  | .dfWr d => Sys2Proof.Machine.execDfWr d s
  | .fpuPush => Sys2Proof.Machine.execFpuPush s
  | .fpuPop => Sys2Proof.Machine.execFpuPop s
  | .fpuRd k => Sys2Proof.Machine.execFpuRd k s
  | .fpuWr k => Sys2Proof.Machine.execFpuWr k s
  | .fpuStRd => Sys2Proof.Machine.execFpuStRd s
  | .fpuStWr => Sys2Proof.Machine.execFpuStWr s
  | .fpuLd80 => Sys2Proof.Machine.execFpuLd80 s
  | .fpuSt80 => Sys2Proof.Machine.execFpuSt80 s
  | .featLd => Sys2Proof.Machine.execFeatLd s
  | .featRd sel => Sys2Proof.Machine.execFeatRd sel s
  | .hasWork => Sys2Proof.Machine.execHasWork s
  | .chkHalt => Sys2Proof.Machine.execChkHalt s
  | .irqOr => Sys2Proof.Machine.execIrqOr s
  | .irqClr => Sys2Proof.Machine.execIrqClr s
  | .irqRd => Sys2Proof.Machine.execIrqRd s
  | .haltSet => Sys2Proof.Machine.execHaltSet s
  | .ccDirect => Sys2Proof.Machine.execCcDirect s
  | .cld => Sys2Proof.Machine.execCld s
  | .std => Sys2Proof.Machine.execStd s
  | .fpuResetState => Sys2Proof.Machine.execFpuResetState s
  | .tagDynamic => Sys2Proof.Machine.execTagDynamic s
  | .tagDirect => Sys2Proof.Machine.execTagDirect s
  | .tagMulb => Sys2Proof.Machine.execTagMulb s
  | .tagMulw => Sys2Proof.Machine.execTagMulw s
  | .tagMull => Sys2Proof.Machine.execTagMull s
  | .tagMulq => Sys2Proof.Machine.execTagMulq s
  | .tagAddb => Sys2Proof.Machine.execTagAddb s
  | .tagAddw => Sys2Proof.Machine.execTagAddw s
  | .tagAddl => Sys2Proof.Machine.execTagAddl s
  | .tagAddq => Sys2Proof.Machine.execTagAddq s
  | .tagAdcb => Sys2Proof.Machine.execTagAdcb s
  | .tagAdcw => Sys2Proof.Machine.execTagAdcw s
  | .tagAdcl => Sys2Proof.Machine.execTagAdcl s
  | .tagAdcq => Sys2Proof.Machine.execTagAdcq s
  | .tagSubb => Sys2Proof.Machine.execTagSubb s
  | .tagSubw => Sys2Proof.Machine.execTagSubw s
  | .tagSubl => Sys2Proof.Machine.execTagSubl s
  | .tagSubq => Sys2Proof.Machine.execTagSubq s
  | .tagSbbb => Sys2Proof.Machine.execTagSbbb s
  | .tagSbbw => Sys2Proof.Machine.execTagSbbw s
  | .tagSbbl => Sys2Proof.Machine.execTagSbbl s
  | .tagSbbq => Sys2Proof.Machine.execTagSbbq s
  | .tagLogicb => Sys2Proof.Machine.execTagLogicb s
  | .tagLogicw => Sys2Proof.Machine.execTagLogicw s
  | .tagLogicl => Sys2Proof.Machine.execTagLogicl s
  | .tagLogicq => Sys2Proof.Machine.execTagLogicq s
  | .tagIncb => Sys2Proof.Machine.execTagIncb s
  | .tagIncw => Sys2Proof.Machine.execTagIncw s
  | .tagIncl => Sys2Proof.Machine.execTagIncl s
  | .tagIncq => Sys2Proof.Machine.execTagIncq s
  | .tagDecb => Sys2Proof.Machine.execTagDecb s
  | .tagDecw => Sys2Proof.Machine.execTagDecw s
  | .tagDecl => Sys2Proof.Machine.execTagDecl s
  | .tagDecq => Sys2Proof.Machine.execTagDecq s
  | .tagShlb => Sys2Proof.Machine.execTagShlb s
  | .tagShlw => Sys2Proof.Machine.execTagShlw s
  | .tagShll => Sys2Proof.Machine.execTagShll s
  | .tagShlq => Sys2Proof.Machine.execTagShlq s
  | .tagSarb => Sys2Proof.Machine.execTagSarb s
  | .tagSarw => Sys2Proof.Machine.execTagSarw s
  | .tagSarl => Sys2Proof.Machine.execTagSarl s
  | .tagSarq => Sys2Proof.Machine.execTagSarq s

end Sys2Proof.Machine
end

