-- ==== Sys2Proof/Decode.lean ====
section
/-! DEFINITION. The two encoding spaces of 30_encoding.md: the 32-bit command word (R70 to R83) and the 8-bit condition-code
tag, the opcode of the flag decoder (R76, R77). A decoder that is total on any word and rejects by name, and an encoder. -/

namespace Sys2Proof

/-- Why a word is no command. Each is an ILLEGAL_CMD (30_encoding.md R78, R79). -/
inductive DecodeError where
  /-- A must-be-zero bit of the command's format is 1 (R78). -/
  | reservedBit
  /-- `OP` is not in the opcode map (R79). -/
  | unassignedOpcode
  /-- A tag without a materialization rule of its own: 42..255 (R76). -/
  | undefinedTag
  deriving DecidableEq, Repr

/-- What an encoding is: a command word, or a tag of the flag decoder. -/
inductive Code where
  | command (w : BitVec 32)
  | tag (t : BitVec 8)
  deriving DecidableEq, Repr

/-! ### Formats (30_encoding.md R72, R73): the must-be-zero bits, then the fields -/

/-- Format N: bits 25:0 are 0. -/
def formatN (w : BitVec 32) (i : Instr) : Except DecodeError Instr :=
  if w.extractLsb' 0 26 = 0 then .ok i else .error .reservedBit

/-- Format R: RIDX is bits 25:22, bits 21:0 are 0. -/
def formatR (w : BitVec 32) (i : BitVec 4 → Instr) : Except DecodeError Instr :=
  if w.extractLsb' 0 22 = 0 then .ok (i (w.extractLsb' 22 4)) else .error .reservedBit

/-- Format S: SIDX is bits 21:19, bits 25:22 and 18:0 are 0. -/
def formatS (w : BitVec 32) (i : BitVec 3 → Instr) : Except DecodeError Instr :=
  if w.extractLsb' 22 4 = 0 ∧ w.extractLsb' 0 19 = 0 then .ok (i (w.extractLsb' 19 3)) else .error .reservedBit

/-- Format C: WE is bits 18:16 (tag, src, dst), TAG is bits 7:0, bits 25:19 and 15:8 are 0. -/
def formatC (w : BitVec 32) (i : Bool → Bool → Bool → BitVec 8 → Instr) : Except DecodeError Instr :=
  if w.extractLsb' 19 7 = 0 ∧ w.extractLsb' 8 8 = 0 then
    .ok (i (w.getLsbD 18) (w.getLsbD 17) (w.getLsbD 16) (w.extractLsb' 0 8))
  else .error .reservedBit

/-- Format K: SEL is bits 17:16, bits 25:18 and 15:0 are 0. -/
def formatK (w : BitVec 32) (i : BitVec 2 → Instr) : Except DecodeError Instr :=
  if w.extractLsb' 18 8 = 0 ∧ w.extractLsb' 0 16 = 0 then .ok (i (w.extractLsb' 16 2)) else .error .reservedBit

/-- Format D: D is bit 0, bits 25:1 are 0. -/
def formatD (w : BitVec 32) (i : Bool → Instr) : Except DecodeError Instr :=
  if w.extractLsb' 1 25 = 0 then .ok (i (w.getLsbD 0)) else .error .reservedBit

/-- The command decoder (30_encoding.md R75, R83): reads `OP` (bits 31:26), then checks the format's must-be-zero bits.
The field values of R81 are checked by the meanings, which know the parameters. A pseudo-command's word decodes to the
command it is another name of (R85; log 10). -/
def decode (w : BitVec 32) : Except DecodeError Instr :=
  match (w.extractLsb' 26 6).toNat with
  | 0x00 => formatN w .nop
  | 0x01 => formatR w .gprRd
  | 0x02 => formatR w .gprWr
  | 0x03 => formatR w .locRd
  | 0x04 => formatR w .locWr
  | 0x05 => formatN w .syncIn
  | 0x06 => formatN w .syncOut
  | 0x07 => formatN w .ipRd
  | 0x08 => formatN w .ipWr
  | 0x10 => formatC w .ccWr
  | 0x11 => formatK w .ccRdRaw
  | 0x12 => formatN w .ccFlags
  | 0x13 => formatN w .ccCarry
  | 0x18 => formatN w .eflPack
  | 0x19 => formatN w .eflRestore
  | 0x1A => formatN w .eflRestoreD
  | 0x1B => formatN w .eflBaseRd
  | 0x1C => formatN w .eflBaseWr
  | 0x1D => formatN w .dfRd
  | 0x1E => formatD w .dfWr
  | 0x20 => formatN w .fpuPush
  | 0x21 => formatN w .fpuPop
  | 0x22 => formatS w .fpuRd
  | 0x23 => formatS w .fpuWr
  | 0x24 => formatN w .fpuStRd
  | 0x25 => formatN w .fpuStWr
  | 0x26 => formatN w .fpuLd80
  | 0x27 => formatN w .fpuSt80
  | 0x30 => formatN w .featLd
  | 0x31 => formatK w .featRd
  | 0x32 => formatN w .hasWork
  | 0x33 => formatN w .chkHalt
  | 0x34 => formatN w .irqOr
  | 0x35 => formatN w .irqClr
  | 0x36 => formatN w .irqRd
  | 0x37 => formatN w .haltSet
  | _ => .error .unassignedOpcode

/-- The tag decoder (30_encoding.md R76): the flag decoder's instruction of a tag value; none for 42..255. -/
def decodeTag (t : BitVec 8) : Option Instr :=
  match t.toNat with
  | 0 => some .tagDynamic
  | 1 => some .tagDirect
  | 2 => some .tagMulb
  | 3 => some .tagMulw
  | 4 => some .tagMull
  | 5 => some .tagMulq
  | 6 => some .tagAddb
  | 7 => some .tagAddw
  | 8 => some .tagAddl
  | 9 => some .tagAddq
  | 10 => some .tagAdcb
  | 11 => some .tagAdcw
  | 12 => some .tagAdcl
  | 13 => some .tagAdcq
  | 14 => some .tagSubb
  | 15 => some .tagSubw
  | 16 => some .tagSubl
  | 17 => some .tagSubq
  | 18 => some .tagSbbb
  | 19 => some .tagSbbw
  | 20 => some .tagSbbl
  | 21 => some .tagSbbq
  | 22 => some .tagLogicb
  | 23 => some .tagLogicw
  | 24 => some .tagLogicl
  | 25 => some .tagLogicq
  | 26 => some .tagIncb
  | 27 => some .tagIncw
  | 28 => some .tagIncl
  | 29 => some .tagIncq
  | 30 => some .tagDecb
  | 31 => some .tagDecw
  | 32 => some .tagDecl
  | 33 => some .tagDecq
  | 34 => some .tagShlb
  | 35 => some .tagShlw
  | 36 => some .tagShll
  | 37 => some .tagShlq
  | 38 => some .tagSarb
  | 39 => some .tagSarw
  | 40 => some .tagSarl
  | 41 => some .tagSarq
  | _ => none

/-- Decoding in either space. -/
def decodeCode : Code → Except DecodeError Instr
  | .command w => decode w
  | .tag t =>
    match decodeTag t with
    | some i => .ok i
    | none => .error .undefinedTag

/-! ### The encoder, written from R72, R73 and R75 -/

/-- A command word of format N. -/
def wordN (op : BitVec 6) : BitVec 32 := op ++ 0#26

/-- A command word of format R. -/
def wordR (op : BitVec 6) (r : BitVec 4) : BitVec 32 := op ++ r ++ 0#22

/-- A command word of format S. -/
def wordS (op : BitVec 6) (i : BitVec 3) : BitVec 32 := op ++ 0#4 ++ i ++ 0#19

/-- A command word of format C. -/
def wordC (op : BitVec 6) (wt ws wd : Bool) (t : BitVec 8) : BitVec 32 :=
  op ++ 0#7 ++ BitVec.ofBool wt ++ BitVec.ofBool ws ++ BitVec.ofBool wd ++ 0#8 ++ t

/-- A command word of format K. -/
def wordK (op : BitVec 6) (sel : BitVec 2) : BitVec 32 := op ++ 0#8 ++ sel ++ 0#16

/-- A command word of format D. -/
def wordD (op : BitVec 6) (d : Bool) : BitVec 32 := op ++ 0#25 ++ BitVec.ofBool d

/-- The encoding of an instruction. A pseudo-command has the word R85 gives it. -/
def encode (i : Instr) : Code :=
  match i with
  | .nop => .command (wordN 0x00)
  | .gprRd r => .command (wordR 0x01 r)
  | .gprWr r => .command (wordR 0x02 r)
  | .locRd r => .command (wordR 0x03 r)
  | .locWr r => .command (wordR 0x04 r)
  | .syncIn => .command (wordN 0x05)
  | .syncOut => .command (wordN 0x06)
  | .ipRd => .command (wordN 0x07)
  | .ipWr => .command (wordN 0x08)
  | .ccWr wt ws wd t => .command (wordC 0x10 wt ws wd t)
  | .ccRdRaw sel => .command (wordK 0x11 sel)
  | .ccFlags => .command (wordN 0x12)
  | .ccCarry => .command (wordN 0x13)
  | .eflPack => .command (wordN 0x18)
  | .eflRestore => .command (wordN 0x19)
  | .eflRestoreD => .command (wordN 0x1A)
  | .eflBaseRd => .command (wordN 0x1B)
  | .eflBaseWr => .command (wordN 0x1C)
  | .dfRd => .command (wordN 0x1D)
  | .dfWr d => .command (wordD 0x1E d)
  | .fpuPush => .command (wordN 0x20)
  | .fpuPop => .command (wordN 0x21)
  | .fpuRd i => .command (wordS 0x22 i)
  | .fpuWr i => .command (wordS 0x23 i)
  | .fpuStRd => .command (wordN 0x24)
  | .fpuStWr => .command (wordN 0x25)
  | .fpuLd80 => .command (wordN 0x26)
  | .fpuSt80 => .command (wordN 0x27)
  | .featLd => .command (wordN 0x30)
  | .featRd sel => .command (wordK 0x31 sel)
  | .hasWork => .command (wordN 0x32)
  | .chkHalt => .command (wordN 0x33)
  | .irqOr => .command (wordN 0x34)
  | .irqClr => .command (wordN 0x35)
  | .irqRd => .command (wordN 0x36)
  | .haltSet => .command (wordN 0x37)
  | .ccDirect => .command 0x40040001
  | .cld => .command 0x78000000
  | .std => .command 0x78000001
  | .fpuResetState => .command 0x94000000
  | .tagDynamic => .tag 0
  | .tagDirect => .tag 1
  | .tagMulb => .tag 2
  | .tagMulw => .tag 3
  | .tagMull => .tag 4
  | .tagMulq => .tag 5
  | .tagAddb => .tag 6
  | .tagAddw => .tag 7
  | .tagAddl => .tag 8
  | .tagAddq => .tag 9
  | .tagAdcb => .tag 10
  | .tagAdcw => .tag 11
  | .tagAdcl => .tag 12
  | .tagAdcq => .tag 13
  | .tagSubb => .tag 14
  | .tagSubw => .tag 15
  | .tagSubl => .tag 16
  | .tagSubq => .tag 17
  | .tagSbbb => .tag 18
  | .tagSbbw => .tag 19
  | .tagSbbl => .tag 20
  | .tagSbbq => .tag 21
  | .tagLogicb => .tag 22
  | .tagLogicw => .tag 23
  | .tagLogicl => .tag 24
  | .tagLogicq => .tag 25
  | .tagIncb => .tag 26
  | .tagIncw => .tag 27
  | .tagIncl => .tag 28
  | .tagIncq => .tag 29
  | .tagDecb => .tag 30
  | .tagDecw => .tag 31
  | .tagDecl => .tag 32
  | .tagDecq => .tag 33
  | .tagShlb => .tag 34
  | .tagShlw => .tag 35
  | .tagShll => .tag 36
  | .tagShlq => .tag 37
  | .tagSarb => .tag 38
  | .tagSarw => .tag 39
  | .tagSarl => .tag 40
  | .tagSarq => .tag 41

/-- The command that a pseudo-command is another name of (30_encoding.md R85); any other instruction is itself.
`FPU_RESET_STATE` is `FPU_ST_WR` with port `a` = 0xFF00. -/
def expand (i : Instr) : Instr :=
  match i with
  | .ccDirect => .ccWr true false false 1
  | .cld => .dfWr false
  | .std => .dfWr true
  | .fpuResetState => .fpuStWr
  | .nop => .nop
  | .gprRd r => .gprRd r
  | .gprWr r => .gprWr r
  | .locRd r => .locRd r
  | .locWr r => .locWr r
  | .syncIn => .syncIn
  | .syncOut => .syncOut
  | .ipRd => .ipRd
  | .ipWr => .ipWr
  | .ccWr wt ws wd t => .ccWr wt ws wd t
  | .ccRdRaw sel => .ccRdRaw sel
  | .ccFlags => .ccFlags
  | .ccCarry => .ccCarry
  | .eflPack => .eflPack
  | .eflRestore => .eflRestore
  | .eflRestoreD => .eflRestoreD
  | .eflBaseRd => .eflBaseRd
  | .eflBaseWr => .eflBaseWr
  | .dfRd => .dfRd
  | .dfWr d => .dfWr d
  | .fpuPush => .fpuPush
  | .fpuPop => .fpuPop
  | .fpuRd i => .fpuRd i
  | .fpuWr i => .fpuWr i
  | .fpuStRd => .fpuStRd
  | .fpuStWr => .fpuStWr
  | .fpuLd80 => .fpuLd80
  | .fpuSt80 => .fpuSt80
  | .featLd => .featLd
  | .featRd sel => .featRd sel
  | .hasWork => .hasWork
  | .chkHalt => .chkHalt
  | .irqOr => .irqOr
  | .irqClr => .irqClr
  | .irqRd => .irqRd
  | .haltSet => .haltSet
  | .tagDynamic => .tagDynamic
  | .tagDirect => .tagDirect
  | .tagMulb => .tagMulb
  | .tagMulw => .tagMulw
  | .tagMull => .tagMull
  | .tagMulq => .tagMulq
  | .tagAddb => .tagAddb
  | .tagAddw => .tagAddw
  | .tagAddl => .tagAddl
  | .tagAddq => .tagAddq
  | .tagAdcb => .tagAdcb
  | .tagAdcw => .tagAdcw
  | .tagAdcl => .tagAdcl
  | .tagAdcq => .tagAdcq
  | .tagSubb => .tagSubb
  | .tagSubw => .tagSubw
  | .tagSubl => .tagSubl
  | .tagSubq => .tagSubq
  | .tagSbbb => .tagSbbb
  | .tagSbbw => .tagSbbw
  | .tagSbbl => .tagSbbl
  | .tagSbbq => .tagSbbq
  | .tagLogicb => .tagLogicb
  | .tagLogicw => .tagLogicw
  | .tagLogicl => .tagLogicl
  | .tagLogicq => .tagLogicq
  | .tagIncb => .tagIncb
  | .tagIncw => .tagIncw
  | .tagIncl => .tagIncl
  | .tagIncq => .tagIncq
  | .tagDecb => .tagDecb
  | .tagDecw => .tagDecw
  | .tagDecl => .tagDecl
  | .tagDecq => .tagDecq
  | .tagShlb => .tagShlb
  | .tagShlw => .tagShlw
  | .tagShll => .tagShll
  | .tagShlq => .tagShlq
  | .tagSarb => .tagSarb
  | .tagSarw => .tagSarw
  | .tagSarl => .tagSarl
  | .tagSarq => .tagSarq

/-- The instruction the decoder reads from bits `w` of a row of opcode_table.json that is `nbits` bits wide: a tag row has
8, a command row 32 (log 9). -/
def decodeTableWord (nbits w : Nat) : Option Instr :=
  if nbits = 8 then decodeTag (BitVec.ofNat 8 w) else (decode (BitVec.ofNat 32 w)).toOption

end Sys2Proof
end

