-- ==== Sys2Proof/Machine/Fetch.lean ====
section
/-! DEFINITION. What one step takes from the outside: the next pending input, and the instruction a presented command word
stands for (30_encoding.md R70, R83; 60_exceptions.md R223, R228). The block has no program counter and fetches nothing
(00_scope.md R13): the caller presents each command (log 8). -/

namespace Sys2Proof.Machine

/-- What a step finds. -/
inductive Fetched where
  /-- Nothing is presented: the block does nothing. -/
  | idle
  /-- The input is dealt with: no instruction runs. -/
  | settled (s : State)
  /-- Instruction `i` runs in state `s`, with its ports presented. -/
  | run (i : Instr) (s : State)
  deriving DecidableEq, Repr

/-- Whether the agent may issue the command: the owner any, another agent only IRQ_OR (60_exceptions.md R228). -/
def mayIssue (g : Agent) (i : Instr) : Bool :=
  match g with
  | .owner => true
  | .other => decide (i = .irqOr)

/-- The command's ports are presented; the memory port has issued nothing yet (30_encoding.md R70, R71). -/
def State.present (s : State) (c : Command) : State := { s with port := c, memPort := [] }

/-- A presented command: ILLEGAL_CMD when its word is none or its agent may not issue it (30_encoding.md R78, R79;
60_exceptions.md R223, R228). -/
def fetchCommand (s : State) (c : Command) : Fetched :=
  match decode c.cmd with
  | .error _ => .settled (s.present c).illegal
  | .ok i => if mayIssue c.agent i then .run i (s.present c) else .settled (s.present c).illegal

/-- Another agent writes a byte of guest memory (20_memory.md R59). -/
def State.guestWrite (s : State) (a : Word) (b : Byte) : State :=
  { s with mem := Memory.write s.mem (truncW s.cfg a).toNat b }

/-- The next pending input is taken. -/
def fetch (s : State) : Fetched :=
  match s.inputs with
  | [] => .idle
  | .command c :: rest => fetchCommand { s with inputs := rest } c
  | .guestWrite a b :: rest => .settled (State.guestWrite { s with inputs := rest } a b)
  | .platformReset :: rest => .settled (State.resetAgain { s with inputs := rest })

/-- The word of CC_FLAGS (41_condition_codes.md R140), the command that fires the flag decoder. -/
def ccFlagsWord : BitVec 32 := 0x48000000

/-- Place an instruction where the next step takes it (log 8, log 9). A command word is presented next, by the owner, every
port 0 and its accesses completing. A tag (8 bits) is placed where the flag decoder takes its opcode, the register `tag`,
with no restore pending, and CC_FLAGS is presented next. -/
def placeNext (s : State) (nbits w : Nat) : State :=
  if nbits = 8 then
    { s with
      tag := BitVec.ofNat 8 w
      restorePending := false
      inputs := .command (.ofWord ccFlagsWord) :: s.inputs }
  else { s with inputs := .command (.ofWord (BitVec.ofNat 32 w)) :: s.inputs }

end Sys2Proof.Machine
end

