-- ==== Sys2Proof/Machine/Step.lean ====
section
/-! DEFINITION. One step: one pending input (30_encoding.md R70; 00_scope.md R15). -/

namespace Sys2Proof.Machine

/-- One step. With nothing presented the block does nothing (log 7). -/
def step (s : State) : Host.Outcome State Fault Refusal :=
  match fetch s with
  | .idle => .next s
  | .settled t => .next t
  | .run i t => exec i t

/-- The state with the instruction of `nbits` bits `w` placed where the next step takes it. -/
def State.withFetchWord (s : State) (nbits w : Nat) : State := placeNext s nbits w

end Sys2Proof.Machine
end

