-- ==== Sys2Proof/Machine/Assembler.lean ====
section
/-! DEFINITION. The assembler syntax of 30_encoding.md R84 and the pseudo-commands of R85: from a line, split into its tokens,
to the command on the ports (log 16). -/

namespace Sys2Proof.Machine

/-- The TAGNAME operand of CC_WR (R84): a name of R76, or a number. -/
inductive AsmTag where
  | name (n : String)
  | number (k : Nat)
  deriving DecidableEq, Repr

/-- The operands of a line, by format (R84). -/
inductive AsmOperand where
  /-- Format N: none. -/
  | none
  /-- Format R: `rN`. -/
  | reg (n : Nat)
  /-- Format S: `st(i)`. -/
  | st (i : Nat)
  /-- Format C: the letters `t`, `s`, `d` of the enabled writes, and the tag. -/
  | record (t s d : Bool) (tag : AsmTag)
  /-- Format K: `tag`, `src`, `dst`, or `feat`, `modes`. -/
  | sel (n : String)
  /-- Format D: `0` or `1`. -/
  | bit (k : Nat)
  deriving DecidableEq, Repr

/-- A line of R84: mnemonic, operands, and the port values written after them (0 where none is written). -/
structure AsmLine where
  mnemonic : String
  operand : AsmOperand
  a : BitVec 64 := 0
  b : BitVec 64 := 0
  v : Slot := 0
  addr : Word := 0
  deriving DecidableEq, Repr

/-- The mnemonics without an operand: the commands of format N (R75) and the pseudo-commands (R85). -/
def plainMnemonics : List (String × Instr) := [
  ("NOP", .nop), ("SYNC_IN", .syncIn), ("SYNC_OUT", .syncOut), ("IP_RD", .ipRd), ("IP_WR", .ipWr),
  ("CC_FLAGS", .ccFlags), ("CC_CARRY", .ccCarry), ("EFL_PACK", .eflPack), ("EFL_RESTORE", .eflRestore),
  ("EFL_RESTORE_D", .eflRestoreD), ("EFL_BASE_RD", .eflBaseRd), ("EFL_BASE_WR", .eflBaseWr), ("DF_RD", .dfRd),
  ("FPU_PUSH", .fpuPush), ("FPU_POP", .fpuPop), ("FPU_ST_RD", .fpuStRd), ("FPU_ST_WR", .fpuStWr),
  ("FPU_LD80", .fpuLd80), ("FPU_ST80", .fpuSt80), ("FEAT_LD", .featLd), ("HAS_WORK", .hasWork),
  ("CHK_HALT", .chkHalt), ("IRQ_OR", .irqOr), ("IRQ_CLR", .irqClr), ("IRQ_RD", .irqRd), ("HALT_SET", .haltSet),
  ("CC_DIRECT", .ccDirect), ("CLD", .cld), ("STD", .std), ("FPU_RESET_STATE", .fpuResetState)]

/-- The tag names of 30_encoding.md R76 and their values. -/
def tagNames : List (String × BitVec 8) := [
  ("DYNAMIC", 0), ("DIRECT", 1), ("MULB", 2), ("MULW", 3), ("MULL", 4), ("MULQ", 5), ("ADDB", 6), ("ADDW", 7),
  ("ADDL", 8), ("ADDQ", 9), ("ADCB", 10), ("ADCW", 11), ("ADCL", 12), ("ADCQ", 13), ("SUBB", 14), ("SUBW", 15),
  ("SUBL", 16), ("SUBQ", 17), ("SBBB", 18), ("SBBW", 19), ("SBBL", 20), ("SBBQ", 21), ("LOGICB", 22),
  ("LOGICW", 23), ("LOGICL", 24), ("LOGICQ", 25), ("INCB", 26), ("INCW", 27), ("INCL", 28), ("INCQ", 29),
  ("DECB", 30), ("DECW", 31), ("DECL", 32), ("DECQ", 33), ("SHLB", 34), ("SHLW", 35), ("SHLL", 36),
  ("SHLQ", 37), ("SARB", 38), ("SARW", 39), ("SARL", 40), ("SARQ", 41)]

/-- The tag value an operand names; a number must fit 8 bits. -/
def asmTagValue (t : AsmTag) : Option (BitVec 8) :=
  match t with
  | .name n => tagNames.lookup n
  | .number k => if k < 256 then some (BitVec.ofNat 8 k) else none

/-- Format R. -/
def asmReg (m : String) (r : BitVec 4) : Option Instr :=
  [("GPR_RD", Instr.gprRd r), ("GPR_WR", .gprWr r), ("LOC_RD", .locRd r), ("LOC_WR", .locWr r)].lookup m

/-- Format S. -/
def asmSt (m : String) (i : BitVec 3) : Option Instr :=
  [("FPU_RD", Instr.fpuRd i), ("FPU_WR", .fpuWr i)].lookup m

/-- Format K. -/
def asmSel (m n : String) : Option Instr :=
  [(("CC_RD_RAW", "tag"), Instr.ccRdRaw 0), (("CC_RD_RAW", "src"), .ccRdRaw 1), (("CC_RD_RAW", "dst"), .ccRdRaw 2),
    (("FEAT_RD", "feat"), .featRd 0), (("FEAT_RD", "modes"), .featRd 1)].lookup (m, n)

/-- The instruction a line spells (R84, R85); none where it spells none. -/
def asmInstr (l : AsmLine) : Option Instr :=
  match l.operand with
  | .none => plainMnemonics.lookup l.mnemonic
  | .reg n => if n < 16 then asmReg l.mnemonic (BitVec.ofNat 4 n) else none
  | .st i => if i < 8 then asmSt l.mnemonic (BitVec.ofNat 3 i) else none
  | .record t s d g => if l.mnemonic = "CC_WR" then (asmTagValue g).map (Instr.ccWr t s d) else none
  | .sel n => asmSel l.mnemonic n
  | .bit k => if l.mnemonic = "DF_WR" ∧ k < 2 then some (.dfWr (decide (k = 1))) else none

/-- The command that presents an instruction with the given port values, from the owner, its accesses completing; none for
a tag, which is no command word. FPU_RESET_STATE brings its own port `a` = 0xFF00 (R85). -/
def asmCommand (i : Instr) (l : AsmLine) : Option Command :=
  match encode i with
  | .command w =>
    some { Command.ofWord w with a := if i = .fpuResetState then 0xFF00 else l.a, b := l.b, v := l.v, addr := l.addr }
  | .tag _ => none

/-- The command a line stands for (R84, R85). -/
def assemble (l : AsmLine) : Option Command := (asmInstr l).bind fun i => asmCommand i l

end Sys2Proof.Machine
end

