-- ==== Sys2Proof/WellFormed.lean ====
section
/-! DEFINITION. Which instructions are legal in a block of given parameters (30_encoding.md R80, R81), and which parameters
are legal (00_scope.md R8). -/

namespace Sys2Proof

open Machine

/-- Whether the instruction belongs to the boundary units (opcodes 0x30 to 0x37, 00_scope.md R11). -/
def Instr.isBoundary : Instr → Bool
  | .featLd | .featRd _ | .hasWork | .chkHalt | .irqOr | .irqClr | .irqRd | .haltSet => true
  | .nop | .gprRd _ | .gprWr _ | .locRd _ | .locWr _ | .syncIn | .syncOut | .ipRd | .ipWr | .ccWr _ _ _ _
  | .ccRdRaw _ | .ccFlags | .ccCarry | .eflPack | .eflRestore | .eflRestoreD | .eflBaseRd | .eflBaseWr | .dfRd
  | .dfWr _ | .fpuPush | .fpuPop | .fpuRd _ | .fpuWr _ | .fpuStRd | .fpuStWr | .fpuLd80 | .fpuSt80 | .ccDirect
  | .cld | .std | .fpuResetState | .tagDynamic | .tagDirect | .tagMulb | .tagMulw | .tagMull | .tagMulq
  | .tagAddb | .tagAddw | .tagAddl | .tagAddq | .tagAdcb | .tagAdcw | .tagAdcl | .tagAdcq | .tagSubb | .tagSubw
  | .tagSubl | .tagSubq | .tagSbbb | .tagSbbw | .tagSbbl | .tagSbbq | .tagLogicb | .tagLogicw | .tagLogicl
  | .tagLogicq | .tagIncb | .tagIncw | .tagIncl | .tagIncq | .tagDecb | .tagDecw | .tagDecl | .tagDecq
  | .tagShlb | .tagShlw | .tagShll | .tagShlq | .tagSarb | .tagSarw | .tagSarl | .tagSarq => false

/-- Whether the instruction's field values mean something under `p` (30_encoding.md R80, R81). -/
def Instr.wellFormed (p : Params) (i : Instr) : Bool :=
  match i with
  | .gprRd r | .gprWr r => decide (r.toNat < nregs p)
  | .locRd r | .locWr r => isBound p r
  | .ccRdRaw sel => decide (sel ≠ 3)
  | .featRd sel => p.boundaryUnits && decide (sel.toNat < 2)
  | .featLd | .hasWork | .chkHalt | .irqOr | .irqClr | .irqRd | .haltSet => p.boundaryUnits
  | .nop | .syncIn | .syncOut | .ipRd | .ipWr | .ccWr _ _ _ _ | .ccFlags | .ccCarry | .eflPack | .eflRestore
  | .eflRestoreD | .eflBaseRd | .eflBaseWr | .dfRd | .dfWr _ | .fpuPush | .fpuPop | .fpuRd _ | .fpuWr _
  | .fpuStRd | .fpuStWr | .fpuLd80 | .fpuSt80 | .ccDirect | .cld | .std | .fpuResetState | .tagDynamic
  | .tagDirect | .tagMulb | .tagMulw | .tagMull | .tagMulq | .tagAddb | .tagAddw | .tagAddl | .tagAddq
  | .tagAdcb | .tagAdcw | .tagAdcl | .tagAdcq | .tagSubb | .tagSubw | .tagSubl | .tagSubq | .tagSbbb | .tagSbbw
  | .tagSbbl | .tagSbbq | .tagLogicb | .tagLogicw | .tagLogicl | .tagLogicq | .tagIncb | .tagIncw | .tagIncl
  | .tagIncq | .tagDecb | .tagDecw | .tagDecl | .tagDecq | .tagShlb | .tagShlw | .tagShll | .tagShlq | .tagSarb
  | .tagSarw | .tagSarl | .tagSarq => true

/-- Whether a word is a W-bit value: no bit at or above W. -/
def fitsW (p : Params) (v : Word) : Bool := decide (truncW p v = v)

/-- Whether a 16-entry register array holds W-bit values, and nothing at or above `NREGS`. -/
def fitsRegs (p : Params) (v : Vector Word 16) : Bool :=
  v.toList.all (fitsW p) && (v.toList.drop (nregs p)).all (fun x => decide (x = 0))

/-- A 32-bit mask of exactly one bit. -/
def singleBit (m : BitVec 32) : Bool := decide (m ≠ 0) && decide (m &&& (m - 1) = 0)

/-- Whether the parameters have the legal values of 00_scope.md R8. -/
def Params.legal (p : Params) : Bool :=
  (p.bound.toList.drop (nregs p)).all (fun x => !x)
    && fitsRegs p p.resetGpr && fitsW p p.resetIp
    && singleBit p.irqHard && singleBit p.irqNmi && singleBit p.irqInit && singleBit p.irqSipi
    && decide ([p.irqHard, p.irqNmi, p.irqInit, p.irqSipi].Nodup)
    && decide (p.lmaBit ≠ p.svmeBit)

end Sys2Proof
end

