-- ==== Sys2Proof/Safety.lean ====
section
/-! DEFINITION. What counts as a safe run, and the invariants of the spec (10_state.md R28, R30, R35, R43; 42_eflags.md R168;
60_exceptions.md R221), in the terms the statements use. -/

namespace Sys2Proof.Machine

/-- A run with a recorded model fault is never a successful run (60_exceptions.md R221). -/
def State.successful (s : State) : Bool := s.faultLog.isEmpty

/-- The state less the result ports `out`, `out80` and `fault` and the model's own counter: two states that agree on it
agree on all block state, the fault log, guest memory, the memory port, the input ports, the pending inputs and the
parameters. -/
def State.settled (s : State) : State := { s with out := 0, out80 := 0, fault := none, draws := 0 }

/-- `base[1]` = 1 and `base & OWNED_MASK` = 0 (42_eflags.md R168). -/
def State.baseOk (s : State) : Bool := s.base.getLsbD 1 && decide (s.base &&& ownedMask = 0)

/-- `df` holds +1 or -1 (10_state.md R30). -/
def State.dfOk (s : State) : Bool := decide (s.df = 1) || decide (s.df = 0xFFFFFFFF)

/-- The derived mode flags are the two designated bits of `feat` (10_state.md R43). -/
def State.modesOk (s : State) : Bool :=
  decide (s.lma = s.feat.getLsbD s.cfg.lmaBit.toNat) && decide (s.svme = s.feat.getLsbD s.cfg.svmeBit.toNat)

/-- Every listed address is a W-bit one (20_memory.md R52). -/
def addrsFit (p : Params) (m : Memory) : Bool := m.all fun e => decide (e.1 < 2 ^ 64) && fitsW p (BitVec.ofNat 64 e.1)

/-- Guest memory is in canonical form, within the address space. -/
def State.memOk (s : State) : Bool := Memory.wf s.mem && addrsFit s.cfg s.mem

/-- Every W-bit register holds a W-bit value, no register at or above NREGS holds anything, and only a bound register has a
written local copy (00_scope.md R8; 10_state.md R24). -/
def State.widthsOk (s : State) : Bool :=
  fitsRegs s.cfg s.gpr && fitsRegs s.cfg s.loc && fitsW s.cfg s.ip && fitsW s.cfg s.src && fitsW s.cfg s.dst
    && ((List.range 16).map (BitVec.ofNat 4)).all fun r => !s.locValid r || isBound s.cfg r

/-- When the boundary units are absent their state is as at reset, since no command of theirs is legal
(00_scope.md R11; log 17). -/
def State.boundaryOk (s : State) : Bool :=
  s.cfg.boundaryUnits
    || (decide (s.irq = 0) && !s.halted && decide (s.feat = 0) && !s.lma && !s.svme)

/-- All of it, in a block of legal parameters. -/
def State.inv (s : State) : Bool :=
  s.cfg.legal && s.baseOk && s.dfOk && s.modesOk && s.memOk && s.widthsOk && s.boundaryOk

end Sys2Proof.Machine
end

