-- ==== Sys2Proof/Certificates/Slice0/Obligations.lean ====
section
/-! DEFINITION. The statements, from the numbered rules of spec/. `t.settled = u.settled` says that t and u agree on all
block state, the fault log, guest memory, the memory port, the input ports, the pending inputs and the parameters: a frame.
The result ports `out` and `out80` are stated where the rule drives them; elsewhere they are free (log 4) and nothing is
said of them. -/

open Sys2Proof Sys2Proof.Machine

namespace Sys2Proof.Claims

/-- The number of bits W (00_scope.md R8). -/
def widthBits (p : Params) : Nat :=
  match p.w with
  | .w32 => 32
  | .w64 => 64

/-- `OP` of a command word (30_encoding.md R72). -/
def opOf (w : BitVec 32) : Nat := (w.extractLsb' 26 6).toNat

/-- The opcodes that 30_encoding.md R79 leaves unassigned. -/
def unassigned (op : Nat) : Prop :=
  (0x09 ≤ op ∧ op ≤ 0x0F) ∨ (0x14 ≤ op ∧ op ≤ 0x17) ∨ op = 0x1F ∨ (0x28 ≤ op ∧ op ≤ 0x2F) ∨ (0x38 ≤ op ∧ op ≤ 0x3F)

/-- The must-be-zero bits of the opcode's format (30_encoding.md R73, R75). -/
def mustBeZero (op : Nat) : BitVec 32 :=
  if op = 0x01 ∨ op = 0x02 ∨ op = 0x03 ∨ op = 0x04 then 0x003FFFFF
  else if op = 0x22 ∨ op = 0x23 then 0x03C7FFFF
  else if op = 0x10 then 0x03F8FF00
  else if op = 0x11 ∨ op = 0x31 then 0x03FCFFFF
  else if op = 0x1E then 0x03FFFFFE
  else 0x03FFFFFF

/-- The state in which a presented command runs (30_encoding.md R70). -/
def presented (s : State) (c : Command) (rest : List Event) : State :=
  { s with inputs := rest, port := c, memPort := [] }

/-- The command ends with the model fault `f`: it stands on the port `fault`, it is recorded, and nothing else changes
(60_exceptions.md R221). -/
def endsInModelFault (r : Result) (s : State) (f : ModelFault) : Prop :=
  ∃ t, r = .next t ∧ t.fault = some (.model f) ∧ t.settled = { s with faultLog := s.faultLog ++ [f] }.settled

/-- The command succeeds and leaves everything as in `u`, the result ports apart. -/
def succeeds (r : Result) (u : State) : Prop :=
  ∃ t, r = .next t ∧ t.fault = none ∧ t.settled = u.settled

/-- The command succeeds, drives `out` with `v`, and leaves everything else as in `u`. -/
def answers (r : Result) (u : State) (v : BitVec 64) : Prop :=
  ∃ t, r = .next t ∧ t.fault = none ∧ t.settled = u.settled ∧ t.out = v

/-- The flag mask of 41_condition_codes.md R120, bit by bit: the six flags at their positions, every other bit 0. -/
def flagsAre (v : BitVec 64) (cf pf af zf sf of : Bool) : Prop :=
  v.getLsbD 0 = cf ∧ v.getLsbD 2 = pf ∧ v.getLsbD 4 = af ∧ v.getLsbD 6 = zf ∧ v.getLsbD 7 = sf ∧ v.getLsbD 11 = of
    ∧ ∀ k, k ≠ 0 → k ≠ 2 → k ≠ 4 → k ≠ 6 → k ≠ 7 → k ≠ 11 → v.getLsbD k = false

/-- An even number of 1 bits among the low 8 (00_scope.md R14). -/
def evenLow8 {n : Nat} (d : BitVec n) : Bool := decide ((List.range 8).countP (fun k => d.getLsbD k) % 2 = 0)

/-- PF, ZF and SF follow from the result d (41_condition_codes.md R122); CF, AF and OF are given. -/
def resultFlagsAre {n : Nat} (v : BitVec 64) (d : BitVec n) (cf af of : Bool) : Prop :=
  flagsAre v cf (evenLow8 d) af (decide (d.toNat = 0)) (d.getLsbD (n - 1)) of

/-- The flag decoder, run on the tag instruction `i` of width n ≤ W, succeeds, changes nothing but the result ports, and
drives `out` as `rule` says of the whole word `src`, of s = trunc_N(src) and of d = trunc_N(dst). -/
def tagRuns (i : Instr) (n : Nat) (rule : Word → BitVec n → BitVec n → BitVec 64 → Prop) : Prop :=
  ∀ s : State, n ≤ widthBits s.cfg →
    ∃ t, exec i s = .next t ∧ t.fault = none ∧ t.settled = s.settled
      ∧ rule s.src (s.src.setWidth n) (s.dst.setWidth n) t.out

/-- 41_condition_codes.md R126. -/
def mulRule {n : Nat} (src : Word) (_s d : BitVec n) (v : BitVec 64) : Prop :=
  resultFlagsAre v d (decide (src ≠ 0)) false (decide (src ≠ 0))

/-- 41_condition_codes.md R127. -/
def addRule {n : Nat} (_src : Word) (s d : BitVec n) (v : BitVec 64) : Prop :=
  resultFlagsAre v d (decide (d.toNat < s.toNat)) ((d ^^^ s ^^^ (d - s)).getLsbD 4)
    (((s ^^^ (d - s) ^^^ BitVec.allOnes n) &&& (s ^^^ d)).getLsbD (n - 1))

/-- 41_condition_codes.md R128. -/
def adcRule {n : Nat} (_src : Word) (s d : BitVec n) (v : BitVec 64) : Prop :=
  resultFlagsAre v d (decide (d.toNat ≤ s.toNat)) ((d ^^^ s ^^^ (d - s - 1)).getLsbD 4)
    (((s ^^^ (d - s - 1) ^^^ BitVec.allOnes n) &&& (s ^^^ d)).getLsbD (n - 1))

/-- 41_condition_codes.md R129. -/
def subRule {n : Nat} (_src : Word) (s d : BitVec n) (v : BitVec 64) : Prop :=
  resultFlagsAre v d (decide ((d + s).toNat < s.toNat)) ((d ^^^ (d + s) ^^^ s).getLsbD 4)
    ((((d + s) ^^^ s) &&& ((d + s) ^^^ d)).getLsbD (n - 1))

/-- 41_condition_codes.md R130. -/
def sbbRule {n : Nat} (_src : Word) (s d : BitVec n) (v : BitVec 64) : Prop :=
  resultFlagsAre v d (decide ((d + s + 1).toNat ≤ s.toNat)) ((d ^^^ (d + s + 1) ^^^ s).getLsbD 4)
    ((((d + s + 1) ^^^ s) &&& ((d + s + 1) ^^^ d)).getLsbD (n - 1))

/-- 41_condition_codes.md R131. -/
def logicRule {n : Nat} (_src : Word) (_s d : BitVec n) (v : BitVec 64) : Prop := resultFlagsAre v d false false false

/-- 41_condition_codes.md R132. -/
def incRule {n : Nat} (src : Word) (_s d : BitVec n) (v : BitVec 64) : Prop :=
  resultFlagsAre v d (src.getLsbD 0) ((d ^^^ (d - 1) ^^^ 1).getLsbD 4) (decide (d.toNat = 2 ^ (n - 1)))

/-- 41_condition_codes.md R133. -/
def decRule {n : Nat} (src : Word) (_s d : BitVec n) (v : BitVec 64) : Prop :=
  resultFlagsAre v d (src.getLsbD 0) ((d ^^^ (d + 1) ^^^ 1).getLsbD 4) (decide (d.toNat = 2 ^ (n - 1) - 1))

/-- 41_condition_codes.md R134. -/
def shlRule {n : Nat} (_src : Word) (s d : BitVec n) (v : BitVec 64) : Prop :=
  resultFlagsAre v d (s.getLsbD (n - 1)) false ((s ^^^ d).getLsbD (n - 1))

/-- 41_condition_codes.md R135. -/
def sarRule {n : Nat} (_src : Word) (s d : BitVec n) (v : BitVec 64) : Prop :=
  resultFlagsAre v d (s.getLsbD 0) false ((s ^^^ d).getLsbD (n - 1))

/-- The mask of a family and width, as `out` shows it, for the operands a producer stored in `src` and `dst`. -/
def maskFor (f : Family) (k : OpWidth) (s d : BitVec (opBits k)) : BitVec 64 :=
  (familyFlags f (opBits k) (s.setWidth 64) (d.setWidth 64)).setWidth 64

/-- A sequence of commands on the same ports, one after the other. -/
def runAll (l : List Instr) (s : State) : Result :=
  match l with
  | [] => .next s
  | i :: rest =>
    match exec i s with
    | .next t => runAll rest t
    | .fault f => .fault f
    | .refused r => .refused r

/-- The address of byte j of an 80-bit transfer, j = 0..9: `(A + j) mod 2^W` (20_memory.md R54, R56). -/
def transferAddr (s : State) (j : Nat) : Nat := ((portAddr s).toNat + j) % 2 ^ widthBits s.cfg

/-- Both accesses of the command complete, whatever other agents write while they run. -/
def completes (s : State) : Prop := s.port.first.failure = none ∧ s.port.second.failure = none

/-- The address at which an answer's disturbance writes. -/
def disturbs (p : Params) (ans : Answer) (q : Nat) : Prop :=
  ∃ e ∈ ans.disturbance, q = (truncW p (BitVec.ofNat 64 e.2.1)).toNat

/-- A read of the flags is allowed: the contract is not strict, or no restore is pending (41_condition_codes.md R142). -/
def flagsReadable (s : State) : Prop := s.cfg.strictRestore = false ∨ s.restorePending = false

end Sys2Proof.Claims

open Sys2Proof.Claims

/-! ### Reset, steps and decoding -/

/-- 10_state.md R45: every state element after reset, for every parameters; the defaults give R45's default values; and
EFL_PACK then returns 0x00000002. -/
def Obligations.ResetLeavesTheSpecsValues : Prop :=
  (∀ p : Params,
    (State.atReset p).gpr = p.resetGpr ∧ (State.atReset p).ip = p.resetIp
      ∧ (∀ r, (State.atReset p).locValid r = false)
      ∧ (State.atReset p).tag = 1 ∧ (State.atReset p).src = 0 ∧ (State.atReset p).dst = 0
      ∧ (State.atReset p).restorePending = false
      ∧ (State.atReset p).base = 0x00000002 ∧ (State.atReset p).df = 1
      ∧ (∀ k, (State.atReset p).slotGet k = 0) ∧ (State.atReset p).top = 0
      ∧ (∀ k, k < 8 → (State.atReset p).ftag.getLsbD k = true)
      ∧ (State.atReset p).irq = 0 ∧ (State.atReset p).halted = false ∧ (State.atReset p).feat = 0
      ∧ (State.atReset p).lma = false ∧ (State.atReset p).svme = false
      ∧ (State.atReset p).faultLog = []
      ∧ answers (exec .eflPack (State.atReset p)) (State.atReset p) 0x00000002)
    ∧ (∀ r, State.reset.gprGet r = 0) ∧ State.reset.ip = 0x0000FFF0

/-- 70_reset_and_hazards.md R260, reset applied again: every element of the block takes its reset value, the fault log is
empty, no access is issued and no fault is reported. That guest memory, the pending inputs and the input ports stay is the
model's choice (log 15). -/
def Obligations.ResetAppliedAgainStartsANewBlock : Prop :=
  ∀ (s : State) (rest : List Event), s.inputs = .platformReset :: rest →
    ∃ t, step s = .next t ∧ t.fault = none
      ∧ t.settled = { State.atReset s.cfg with mem := s.mem, inputs := rest, port := s.port }.settled

/-- The reset state of a block of legal parameters meets every invariant of the model. -/
def Obligations.ResetMeetsEveryInvariant : Prop :=
  State.reset.inv = true ∧ ∀ p : Params, p.legal = true → (State.atReset p).inv = true

/-- A step runs the presented command: a word that decodes to `i`, presented by its owner, runs as `exec i` with its ports
presented (30_encoding.md R70; log 8). -/
def Obligations.StepRunsThePresentedCommand : Prop :=
  ∀ (s : State) (c : Command) (rest : List Event) (i : Instr),
    s.inputs = .command c :: rest → c.agent = .owner → decode c.cmd = .ok i →
      step s = exec i (presented s c rest)

/-- The instruction placed by withFetchWord is what the next step runs: a command row as the command presented next, a tag
row as the tag in the register `tag` when CC_FLAGS fires the flag decoder (41_condition_codes.md R121, R140; log 8, log 9). -/
def Obligations.PlacedInstructionRunsNext : Prop :=
  (∀ (s : State) (w : BitVec 32) (i : Instr), decodeTableWord 32 w.toNat = some i →
      step (s.withFetchWord 32 w.toNat) = exec i (presented s (.ofWord w) s.inputs))
    ∧ ∀ (s : State) (g : BitVec 8) (i : Instr), decodeTableWord 8 g.toNat = some i →
      step (s.withFetchWord 8 g.toNat)
        = exec i (presented { s with tag := g, restorePending := false } (.ofWord 0x48000000) s.inputs)

/-- 93_implementation_defined.md section 1: no case of the block is stuck; every step has a next state. With nothing presented
it changes nothing (the model's choice, log 7); another agent's write of guest memory changes that one byte and nothing else,
the result ports included (20_memory.md R59). -/
def Obligations.EveryStepHasANextState : Prop :=
  (∀ s : State, ∃ t, step s = .next t)
    ∧ (∀ s : State, s.inputs = [] → step s = .next s)
    ∧ ∀ (s : State) (a : Word) (b : Byte) (rest : List Event), s.inputs = .guestWrite a b :: rest →
      Memory.wf s.mem = true →
      ∃ t, step s = .next t ∧ t = { s with inputs := rest, mem := t.mem }
        ∧ Memory.read t.mem (a.toNat % 2 ^ widthBits s.cfg) = b
        ∧ ∀ q, q ≠ a.toNat % 2 ^ widthBits s.cfg → Memory.read t.mem q = Memory.read s.mem q

/-- A few words of 95_test_vectors.md and of the rules' examples decode to the commands they spell. -/
def Obligations.SampleWordsDecode : Prop :=
  decode 0x04800000 = .ok (.gprRd 2) ∧ decode 0x09C00000 = .ok (.gprWr 7) ∧ decode 0x0C400000 = .ok (.locRd 1)
    ∧ decode 0x40070006 = .ok (.ccWr true true true 6) ∧ decode 0x40040001 = .ok (.ccWr true false false 1)
    ∧ decode 0x44020000 = .ok (.ccRdRaw 2) ∧ decode 0x68000000 = .ok .eflRestoreD ∧ decode 0x78000001 = .ok (.dfWr true)
    ∧ decode 0x88080000 = .ok (.fpuRd 1) ∧ decode 0x9C000000 = .ok .fpuSt80 ∧ decode 0xC4010000 = .ok (.featRd 1)
    ∧ decode 0xDC000000 = .ok .haltSet ∧ decodeTag 0x0E = some .tagSubb ∧ decodeTag 41 = some .tagSarq

/-- Decode and encode agree, for every instruction and every operand: a command or a tag decodes to itself, a pseudo-command
to the command it is another name of (30_encoding.md R85). -/
def Obligations.EncodedInstructionsDecodeBack : Prop :=
  ∀ i : Instr, decodeCode (encode i) = .ok (expand i)
    ∧ (i ≠ .ccDirect → i ≠ .cld → i ≠ .std → i ≠ .fpuResetState → expand i = i)

/-- The other direction: a word or a tag that decodes to `i` is the encoding of `i`; no bit of a legal encoding is free. -/
def Obligations.DecodedCodesAreEncodings : Prop :=
  ∀ (c : Code) (i : Instr), decodeCode c = .ok i → encode i = c

/-- 30_encoding.md R78, R79: an unassigned opcode, and a 1 in a must-be-zero bit of the format, each fault with ILLEGAL_CMD,
change nothing and make no access. -/
def Obligations.UnassignedOpcodesAndReservedBitsAreIllegal : Prop :=
  ∀ (s : State) (c : Command) (rest : List Event), s.inputs = .command c :: rest →
    unassigned (opOf c.cmd) ∨ c.cmd &&& mustBeZero (opOf c.cmd) ≠ 0 →
      endsInModelFault (step s) (presented s c rest) (.illegalCmd c.cmd) ∧ ∃ t, step s = .next t ∧ t.memPort = []

/-- 30_encoding.md R80: with BOUNDARY_UNITS = 0 the opcodes 0x30 to 0x37 fault with ILLEGAL_CMD, whoever issues them, and
change nothing. -/
def Obligations.AbsentBoundaryUnitsAreIllegal : Prop :=
  ∀ (s : State) (c : Command) (rest : List Event), s.inputs = .command c :: rest → s.cfg.boundaryUnits = false →
    0x30 ≤ opOf c.cmd → opOf c.cmd ≤ 0x37 →
      endsInModelFault (step s) (presented s c rest) (.illegalCmd c.cmd)

/-- 30_encoding.md R81: the illegal field values, and that every TAG and WE value of CC_WR is legal (WE = 0 writes
nothing). -/
def Obligations.IllegalFieldValuesFault : Prop :=
  ∀ s : State,
    (∀ r : BitVec 4, nregs s.cfg ≤ r.toNat →
      endsInModelFault (exec (.gprRd r) s) s (.illegalCmd s.port.cmd)
        ∧ endsInModelFault (exec (.gprWr r) s) s (.illegalCmd s.port.cmd))
      ∧ (∀ r : BitVec 4, isBound s.cfg r = false →
        endsInModelFault (exec (.locRd r) s) s (.illegalCmd s.port.cmd)
          ∧ endsInModelFault (exec (.locWr r) s) s (.illegalCmd s.port.cmd))
      ∧ endsInModelFault (exec (.ccRdRaw 3) s) s (.illegalCmd s.port.cmd)
      ∧ endsInModelFault (exec (.featRd 2) s) s (.illegalCmd s.port.cmd)
      ∧ endsInModelFault (exec (.featRd 3) s) s (.illegalCmd s.port.cmd)
      ∧ (∀ wt ws wd g, ∃ t, exec (.ccWr wt ws wd g) s = .next t ∧ t.fault = none)
      ∧ ∀ g, succeeds (exec (.ccWr false false false g) s) s

/-- Once a command word is legal, ILLEGAL_CMD comes from its field values or from absent boundary units and from nothing
else (30_encoding.md R80, R81; 60_exceptions.md R223). -/
def Obligations.OnlyIllFormedCommandsAreIllegal : Prop :=
  ∀ (i : Instr) (s : State),
    (i.wellFormed s.cfg = false → endsInModelFault (exec i s) s (.illegalCmd s.port.cmd))
      ∧ (i.wellFormed s.cfg = true → ∀ t, exec i s = .next t → ∀ c, t.fault ≠ some (.model (.illegalCmd c)))

/-- 60_exceptions.md R228, R236: another agent's IRQ_OR runs; any other command of another agent is ILLEGAL_CMD and changes
nothing. -/
def Obligations.OtherAgentsMayOnlyOrIrq : Prop :=
  ∀ (s : State) (c : Command) (rest : List Event) (i : Instr),
    s.inputs = .command c :: rest → c.agent = .other → decode c.cmd = .ok i →
      (i = .irqOr → step s = exec .irqOr (presented s c rest))
        ∧ (i ≠ .irqOr → endsInModelFault (step s) (presented s c rest) (.illegalCmd c.cmd))

/-! ### The register file -/

/-- 40_register_file.md R101, R102: for an existing register, GPR_RD returns it and changes nothing; GPR_WR writes `a[W-1:0]`
to it and changes nothing else. -/
def Obligations.GeneralRegistersReadAndWrite : Prop :=
  ∀ (s : State) (r : BitVec 4), r.toNat < nregs s.cfg →
    answers (exec (.gprRd r) s) s (s.gprGet r)
      ∧ ∃ t, exec (.gprWr r) s = .next t ∧ t.fault = none
        ∧ (t.gprGet r).toNat = s.port.a.toNat % 2 ^ widthBits s.cfg
        ∧ (∀ q, q ≠ r → t.gprGet q = s.gprGet q)
        ∧ t.settled = { s with gpr := t.gpr }.settled

/-- 40_register_file.md R103, R104: for a bound register, LOC_RD returns its written local copy and faults on an unwritten
one; LOC_WR writes `a[W-1:0]` to it, marks it written, and changes nothing else, the canonical copy included. -/
def Obligations.LocalRegistersReadAndWrite : Prop :=
  ∀ (s : State) (r : BitVec 4), isBound s.cfg r = true →
    (s.locValid r = true → answers (exec (.locRd r) s) s (s.locGet r))
      ∧ (s.locValid r = false → endsInModelFault (exec (.locRd r) s) s (.unwrittenLocal r.toNat))
      ∧ ∃ t, exec (.locWr r) s = .next t ∧ t.fault = none
        ∧ (t.locGet r).toNat = s.port.a.toNat % 2 ^ widthBits s.cfg ∧ t.locValid r = true
        ∧ (∀ q, q ≠ r → t.locGet q = s.locGet q ∧ t.locValid q = s.locValid q)
        ∧ t.settled = { s with loc := t.loc, lvalid := t.lvalid }.settled

/-- 40_register_file.md R105: SYNC_IN copies every bound register from the canonical array and marks it written; registers
outside BOUND are not touched, and nothing else changes. -/
def Obligations.SyncInCopiesTheBoundRegisters : Prop :=
  ∀ s : State, ∃ t, exec .syncIn s = .next t ∧ t.fault = none
    ∧ (∀ r, isBound s.cfg r = true → t.locGet r = s.gprGet r ∧ t.locValid r = true)
    ∧ (∀ r, isBound s.cfg r = false → t.locGet r = s.locGet r ∧ t.locValid r = s.locValid r)
    ∧ t.settled = { s with loc := t.loc, lvalid := t.lvalid }.settled

/-- 40_register_file.md R106: SYNC_OUT copies every bound register to the canonical array when each is written; otherwise it
names an unwritten one and changes no register. Which of several it names is free (log 11). -/
def Obligations.SyncOutCopiesOrNamesAnUnwrittenRegister : Prop :=
  ∀ s : State,
    ((∀ r, isBound s.cfg r = true → s.locValid r = true) →
      ∃ t, exec .syncOut s = .next t ∧ t.fault = none
        ∧ (∀ r, isBound s.cfg r = true → t.gprGet r = s.locGet r)
        ∧ (∀ r, isBound s.cfg r = false → t.gprGet r = s.gprGet r)
        ∧ t.settled = { s with gpr := t.gpr }.settled)
      ∧ ((∃ r, isBound s.cfg r = true ∧ s.locValid r = false) →
        ∃ r, isBound s.cfg r = true ∧ s.locValid r = false
          ∧ endsInModelFault (exec .syncOut s) s (.unwrittenLocal r.toNat))

/-- 40_register_file.md R100, R107, R108: NOP changes no state; IP_RD returns `ip` and changes nothing; IP_WR writes `a[W-1:0]`
to it and changes nothing else. -/
def Obligations.NopAndInstructionPointer : Prop :=
  ∀ s : State,
    succeeds (exec .nop s) s ∧ answers (exec .ipRd s) s s.ip
      ∧ ∃ t, exec .ipWr s = .next t ∧ t.fault = none
        ∧ t.ip.toNat = s.port.a.toNat % 2 ^ widthBits s.cfg ∧ t.settled = { s with ip := t.ip }.settled

/-- 40_register_file.md R109 (a) to (c): SYNC_IN then SYNC_OUT leaves the canonical array as it was; a local write followed by
SYNC_OUT, and a canonical write followed by SYNC_IN, carry the value over. -/
def Obligations.MirrorKeepsValues : Prop :=
  ∀ s : State,
    (∃ t, runAll [.syncIn, .syncOut] s = .next t ∧ t.fault = none ∧ t.gpr = s.gpr)
      ∧ (∀ r, isBound s.cfg r = true → (∀ q, isBound s.cfg q = true → q ≠ r → s.locValid q = true) →
        ∃ t, runAll [.locWr r, .syncOut] s = .next t ∧ t.fault = none ∧ t.gprGet r = truncW s.cfg s.port.a)
      ∧ ∀ r, isBound s.cfg r = true →
        ∃ t, runAll [.gprWr r, .syncIn] s = .next t ∧ t.fault = none ∧ t.locGet r = truncW s.cfg s.port.a

/-! ### The condition-code engine -/

/-- 41_condition_codes.md R138, R139: CC_WR writes tag, src and dst as enabled, a tag write ends a pending restore, and nothing
else changes; CC_RD_RAW returns tag, src or dst, with no contract check, and changes nothing. -/
def Obligations.DeferredStateWritesAndReads : Prop :=
  ∀ s : State,
    (∀ (wt ws wd : Bool) (g : BitVec 8),
      succeeds (exec (.ccWr wt ws wd g) s)
        { s with
          tag := if wt then g else s.tag
          restorePending := if wt then false else s.restorePending
          src := if ws then truncW s.cfg s.port.a else s.src
          dst := if wd then truncW s.cfg s.port.b else s.dst })
      ∧ answers (exec (.ccRdRaw 0) s) s (s.tag.setWidth 64) ∧ answers (exec (.ccRdRaw 1) s) s s.src
      ∧ answers (exec (.ccRdRaw 2) s) s s.dst

/-- 41_condition_codes.md R140, R141, R136: a readable CC_FLAGS returns the materialized mask, within CC_MASK, CC_CARRY its
bit 0, and neither changes anything. -/
def Obligations.FlagReadsReturnTheMask : Prop :=
  ∀ s : State, flagsReadable s →
    answers (exec .ccFlags s) s ((ccAll s.cfg s.tag s.src s.dst).setWidth 64)
      ∧ answers (exec .ccCarry s) s (((ccAll s.cfg s.tag s.src s.dst).setWidth 64) &&& 1)
      ∧ ccAll s.cfg s.tag s.src s.dst &&& ~~~0x000008D5#32 = 0

/-- 41_condition_codes.md R142: with a strict contract and a restore pending, each of the three flag reads faults with
RESTORE_CONTRACT and changes nothing; with the contract not strict it proceeds and returns the formula's value. -/
def Obligations.ABrokenContractFaultsTheFlagReads : Prop :=
  ∀ s : State,
    (s.cfg.strictRestore = true → s.restorePending = true →
      endsInModelFault (exec .ccFlags s) s .restoreContract ∧ endsInModelFault (exec .ccCarry s) s .restoreContract
        ∧ endsInModelFault (exec .eflPack s) s .restoreContract)
      ∧ (s.cfg.strictRestore = false →
        answers (exec .ccFlags s) s ((ccAll s.cfg s.tag s.src s.dst).setWidth 64)
          ∧ answers (exec .ccCarry s) s ((ccC s.cfg s.tag s.src s.dst).setWidth 64)
          ∧ answers (exec .eflPack s) s ((packEflags s).setWidth 64))

/-- 41_condition_codes.md R121, R140: a readable CC_FLAGS is the flag decoder run on the tag that the register `tag` holds, for
each of the 42 tags of 30_encoding.md R76. That a tag row of the opcode table is an instruction of the flag decoder is the
model's reading (log 9): the rules say only what CC_FLAGS answers under each tag. -/
def Obligations.CcFlagsRunsTheTagInTheRegister : Prop :=
  ∀ (s : State) (i : Instr), flagsReadable s → decodeTag s.tag = some i → exec .ccFlags s = exec i s

/-- 41_condition_codes.md R123, R125: under tag 0 and under every tag 42..255 the mask and the carry are 0, and a readable flag
read answers 0; under tag 1 the mask is `src[31:0] & CC_MASK`, whatever `dst` is. -/
def Obligations.TagsWithoutAWidthFollowTheirRules : Prop :=
  (∀ (p : Params) (g : BitVec 8) (src dst : Word), g = 0 ∨ 42 ≤ g.toNat → ccAll p g src dst = 0 ∧ ccC p g src dst = 0)
    ∧ (∀ s : State, flagsReadable s → s.tag = 0 ∨ 42 ≤ s.tag.toNat →
      answers (exec .ccFlags s) s 0 ∧ answers (exec .ccCarry s) s 0)
    ∧ ∀ (p : Params) (src dst : Word), ccAll p 1 src dst = src.setWidth 32 &&& 0x000008D5#32

/-- 41_condition_codes.md R124: when W = 32 each quadword tag gives 0, run in the flag decoder (log 9) and in the mask. -/
def Obligations.QuadwordTagsGiveZeroAtW32 : Prop :=
  ∀ (s : State) (i : Instr), s.cfg.w = .w32 →
    i ∈ [Instr.tagMulq, .tagAddq, .tagAdcq, .tagSubq, .tagSbbq, .tagLogicq, .tagIncq, .tagDecq, .tagShlq, .tagSarq] →
      answers (exec i s) s 0 ∧ ∀ g, decodeTag g = some i → ccAll s.cfg g s.src s.dst = 0 ∧ ccC s.cfg g s.src s.dst = 0

/-- 41_condition_codes.md R121, R123, R125: the flag decoder run on DYNAMIC answers 0, and on DIRECT the mask held in `src`, and
changes nothing. That a tag is an instruction of the flag decoder is the model's reading (log 9). -/
def Obligations.DynamicAndDirectTagsRun : Prop :=
  ∀ s : State, answers (exec .tagDynamic s) s 0 ∧ answers (exec .tagDirect s) s (s.src &&& 0x000008D5)

/-- 41_condition_codes.md R126, R131, R132, R133: the MUL, LOGIC, INC and DEC tags in every width, as instructions of the flag
decoder (the model's reading, log 9). -/
def Obligations.MulLogicIncDecTagsFollowTheirRules : Prop :=
  tagRuns .tagMulb 8 mulRule ∧ tagRuns .tagMulw 16 mulRule ∧ tagRuns .tagMull 32 mulRule
    ∧ tagRuns .tagMulq 64 mulRule
    ∧ tagRuns .tagLogicb 8 logicRule ∧ tagRuns .tagLogicw 16 logicRule ∧ tagRuns .tagLogicl 32 logicRule
    ∧ tagRuns .tagLogicq 64 logicRule
    ∧ tagRuns .tagIncb 8 incRule ∧ tagRuns .tagIncw 16 incRule ∧ tagRuns .tagIncl 32 incRule
    ∧ tagRuns .tagIncq 64 incRule
    ∧ tagRuns .tagDecb 8 decRule ∧ tagRuns .tagDecw 16 decRule ∧ tagRuns .tagDecl 32 decRule
    ∧ tagRuns .tagDecq 64 decRule

/-- 41_condition_codes.md R127, R128: the ADD and ADC tags in every width, as instructions of the flag decoder (log 9). -/
def Obligations.AddAndAdcTagsFollowTheirRules : Prop :=
  tagRuns .tagAddb 8 addRule ∧ tagRuns .tagAddw 16 addRule ∧ tagRuns .tagAddl 32 addRule ∧ tagRuns .tagAddq 64 addRule
    ∧ tagRuns .tagAdcb 8 adcRule ∧ tagRuns .tagAdcw 16 adcRule ∧ tagRuns .tagAdcl 32 adcRule
    ∧ tagRuns .tagAdcq 64 adcRule

/-- 41_condition_codes.md R129, R130: the SUB and SBB tags in every width, as instructions of the flag decoder (log 9). -/
def Obligations.SubAndSbbTagsFollowTheirRules : Prop :=
  tagRuns .tagSubb 8 subRule ∧ tagRuns .tagSubw 16 subRule ∧ tagRuns .tagSubl 32 subRule ∧ tagRuns .tagSubq 64 subRule
    ∧ tagRuns .tagSbbb 8 sbbRule ∧ tagRuns .tagSbbw 16 sbbRule ∧ tagRuns .tagSbbl 32 sbbRule
    ∧ tagRuns .tagSbbq 64 sbbRule

/-- 41_condition_codes.md R134, R135: the SHL and SAR tags in every width, as instructions of the flag decoder (log 9). -/
def Obligations.ShlAndSarTagsFollowTheirRules : Prop :=
  tagRuns .tagShlb 8 shlRule ∧ tagRuns .tagShlw 16 shlRule ∧ tagRuns .tagShll 32 shlRule ∧ tagRuns .tagShlq 64 shlRule
    ∧ tagRuns .tagSarb 8 sarRule ∧ tagRuns .tagSarw 16 sarRule ∧ tagRuns .tagSarl 32 sarRule
    ∧ tagRuns .tagSarq 64 sarRule

/-- 95_test_vectors.md section 2.1: with operands stored by the producer conventions of 41_condition_codes.md R127 to R130, the
mask agrees with true integer arithmetic, in every width: CF is the unsigned carry or borrow, AF the same of the low nibbles,
OF that the signed result does not fit, SF its sign, ZF that it is 0. -/
def Obligations.SumAndDifferenceFlagsAreTrue : Prop :=
  ∀ (k : OpWidth) (x y : BitVec (opBits k)),
    resultFlagsAre (maskFor .add k y (x + y)) (x + y) (decide (2 ^ opBits k ≤ x.toNat + y.toNat))
        (decide (16 ≤ x.toNat % 16 + y.toNat % 16)) (decide ((x + y).toInt ≠ x.toInt + y.toInt))
      ∧ resultFlagsAre (maskFor .adc k y (x + y + 1)) (x + y + 1) (decide (2 ^ opBits k ≤ x.toNat + y.toNat + 1))
        (decide (16 ≤ x.toNat % 16 + y.toNat % 16 + 1)) (decide ((x + y + 1).toInt ≠ x.toInt + y.toInt + 1))
      ∧ resultFlagsAre (maskFor .sub k y (x - y)) (x - y) (decide (x.toNat < y.toNat))
        (decide (x.toNat % 16 < y.toNat % 16)) (decide ((x - y).toInt ≠ x.toInt - y.toInt))
      ∧ resultFlagsAre (maskFor .sbb k y (x - y - 1)) (x - y - 1) (decide (x.toNat < y.toNat + 1))
        (decide (x.toNat % 16 < y.toNat % 16 + 1)) (decide ((x - y - 1).toInt ≠ x.toInt - y.toInt - 1))

/-- 41_condition_codes.md R134, R135: with operands stored by the producer conventions for a shift by c, 1 <= c <= N, CF is the
last bit shifted out, of SHL and of both kinds of right shift; and for c = 1, OF is 0 for SAR and the old sign for SHR. -/
def Obligations.ShiftFlagsReportTheLastBitOut : Prop :=
  ∀ (k : OpWidth) (x : BitVec (opBits k)) (c : Nat), 1 ≤ c → c ≤ opBits k →
    (maskFor .shl k (x <<< (c - 1)) (x <<< c)).getLsbD 0 = x.getLsbD (opBits k - c)
      ∧ (maskFor .sar k (x >>> (c - 1)) (x >>> c)).getLsbD 0 = x.getLsbD (c - 1)
      ∧ (maskFor .sar k (x.sshiftRight (c - 1)) (x.sshiftRight c)).getLsbD 0 = x.getLsbD (c - 1)
      ∧ (maskFor .sar k (x.sshiftRight 0) (x.sshiftRight 1)).getLsbD 11 = false
      ∧ (maskFor .sar k (x >>> 0) (x >>> 1)).getLsbD 11 = x.msb

/-! ### The EFLAGS multiplexer -/

/-- 42_eflags.md R160, R161: a readable EFL_PACK returns base OR the materialized flags OR the DF bit, and changes nothing; when
the base word and `df` meet their invariants, bit 1 is 1, bit 10 is 1 exactly when `df` is -1, and the six flags' bits are
those of the mask. -/
def Obligations.EflPackMergesTheThreeSources : Prop :=
  ∀ s : State, flagsReadable s →
    answers (exec .eflPack s) s ((s.base ||| ccAll s.cfg s.tag s.src s.dst ||| (s.df &&& 0x00000400)).setWidth 64)
      ∧ (s.baseOk = true → s.dfOk = true → ∀ t, exec .eflPack s = .next t →
        t.out.getLsbD 1 = true ∧ t.out.getLsbD 10 = decide (s.df = 0xFFFFFFFF)
          ∧ t.out &&& 0x000008D5 = (ccAll s.cfg s.tag s.src s.dst).setWidth 64)

/-- 42_eflags.md R162: EFL_RESTORE takes the six flags to `src` and DF to `df` whatever the mask, merges the other bits into
`base` under the mask with bit 1 forced to 1, leaves the tag and dst, and sets the pending contract. -/
def Obligations.EflRestoreSplitsTheValue : Prop :=
  ∀ s : State,
    let v := s.port.a.setWidth 32
    let m := s.port.b.setWidth 32
    succeeds (exec .eflRestore s)
      { s with
        src := (v &&& 0x000008D5#32).setWidth 64
        df := if v.getLsbD 10 then 0xFFFFFFFF else 1
        base := (s.base &&& ~~~m) ||| (v &&& m &&& ~~~0x00000CD5#32) ||| 0x00000002#32
        restorePending := true }

/-- 42_eflags.md R163: EFL_RESTORE_D is EFL_RESTORE with the tag DIRECT and nothing pending: the state of EFL_RESTORE followed by
CC_DIRECT. -/
def Obligations.EflRestoreDirectIsRestoreThenDirect : Prop :=
  ∀ s : State,
    ∃ t u, exec .eflRestoreD s = .next t ∧ runAll [.eflRestore, .ccDirect] s = .next u
      ∧ t.fault = none ∧ u.fault = none ∧ t.settled = u.settled
      ∧ t.tag = 1 ∧ t.restorePending = false ∧ t.src = s.port.a &&& 0x000008D5

/-- 42_eflags.md R164, R165: EFL_BASE_RD returns the base word; EFL_BASE_WR merges into it under the mask, never a bit of
OWNED_MASK, bit 1 forced to 1, and changes nothing else. -/
def Obligations.BaseWordReadsAndWrites : Prop :=
  ∀ s : State,
    let v := s.port.a.setWidth 32
    let m := s.port.b.setWidth 32
    answers (exec .eflBaseRd s) s (s.base.setWidth 64)
      ∧ succeeds (exec .eflBaseWr s)
        { s with base := (s.base &&& ~~~m) ||| (v &&& m &&& ~~~0x00000CD5#32) ||| 0x00000002#32 }

/-- 42_eflags.md R166, R167; 30_encoding.md R85: DF_RD sign-extends `df`; DF_WR, STD and CLD write -1 or +1 to it; nothing else
changes. -/
def Obligations.DirectionFlagReadsAndWrites : Prop :=
  ∀ s : State,
    answers (exec .dfRd s) s (s.df.signExtend 64)
      ∧ (s.df = 1 → answers (exec .dfRd s) s 1) ∧ (s.df = 0xFFFFFFFF → answers (exec .dfRd s) s 0xFFFFFFFFFFFFFFFF)
      ∧ succeeds (exec (.dfWr true) s) { s with df := 0xFFFFFFFF } ∧ succeeds (exec (.dfWr false) s) { s with df := 1 }
      ∧ succeeds (exec .std s) { s with df := 0xFFFFFFFF } ∧ succeeds (exec .cld s) { s with df := 1 }

/-- 42_eflags.md R169: pack, restore, CC_DIRECT, pack again: bit 1 is 1, an owned bit is the restored value's whatever the mask,
another bit is the restored value's under the mask and the old one outside it. -/
def Obligations.EflagsRoundTripBitByBit : Prop :=
  ∀ s p : State, s.baseOk = true → exec .eflPack s = .next p → p.fault = none →
    ∃ q, runAll [.eflRestore, .ccDirect, .eflPack] s = .next q ∧ q.fault = none
      ∧ ∀ i, i < 32 →
        q.out.getLsbD i =
          if i = 1 then true
          else if i ∈ [0, 2, 4, 6, 7, 10, 11] then s.port.a.getLsbD i
          else if s.port.b.getLsbD i then s.port.a.getLsbD i
          else p.out.getLsbD i

/-! ### The FPU stack -/

/-- 43_fpu_stack.md R190, R191, R199: FPU_PUSH and FPU_POP always succeed, move the index and mark one tag in one step, and change
nothing else, the slots included. -/
def Obligations.PushAndPopMoveTheIndexAndOneTag : Prop :=
  ∀ s : State,
    (∃ t, exec .fpuPush s = .next t ∧ t.fault = none ∧ t.top.toNat = (s.top.toNat + 7) % 8
      ∧ (∀ k, k < 8 → t.ftag.getLsbD k = if k = t.top.toNat then false else s.ftag.getLsbD k)
      ∧ t.settled = { s with top := t.top, ftag := t.ftag }.settled)
      ∧ ∃ t, exec .fpuPop s = .next t ∧ t.fault = none ∧ t.top.toNat = (s.top.toNat + 1) % 8
        ∧ (∀ k, k < 8 → t.ftag.getLsbD k = if k = s.top.toNat then true else s.ftag.getLsbD k)
        ∧ t.settled = { s with top := t.top, ftag := t.ftag }.settled

/-- 43_fpu_stack.md R192, R193; 10_state.md R34: FPU_RD returns the slot `(top + i) mod 8`, FPU_WR writes `v` to it, all 80 bits
unchanged, tags and index not consulted and not changed. -/
def Obligations.StackSlotsReadAndWrite : Prop :=
  ∀ (s : State) (i k : BitVec 3), k.toNat = (s.top.toNat + i.toNat) % 8 →
    (∃ t, exec (.fpuRd i) s = .next t ∧ t.fault = none ∧ t.settled = s.settled ∧ t.out80 = s.slotGet k)
      ∧ ∃ t, exec (.fpuWr i) s = .next t ∧ t.fault = none ∧ t.slotGet k = s.port.v
        ∧ (∀ q, q ≠ k → t.slotGet q = s.slotGet q) ∧ t.settled = { s with slots := t.slots }.settled

/-- 43_fpu_stack.md R194, R195; 30_encoding.md R85: FPU_ST_RD returns the index in bits 2:0 and the tags in bits 15:8; FPU_ST_WR
takes both from `a` and FPU_RESET_STATE from 0xFF00, in one step, and changes nothing else. -/
def Obligations.FpuStateWordReadsAndWrites : Prop :=
  ∀ s : State,
    (∃ t, exec .fpuStRd s = .next t ∧ t.fault = none ∧ t.settled = s.settled
      ∧ t.out.toNat = s.top.toNat + 256 * s.ftag.toNat)
      ∧ (∃ t, exec .fpuStWr s = .next t ∧ t.fault = none ∧ t.top.toNat = s.port.a.toNat % 8
        ∧ (∀ k, k < 8 → t.ftag.getLsbD k = s.port.a.getLsbD (8 + k))
        ∧ t.settled = { s with top := t.top, ftag := t.ftag }.settled)
      ∧ succeeds (exec .fpuResetState s) { s with top := 0, ftag := 0xFF }

/-- 43_fpu_stack.md R200: (a) as many pushes as pops, in any interleaving, leave the index; (b) a push then a pop empties the tag
below the top and leaves every other; (c) eight pushes then eight pops leave the index and every tag empty, eight pairs leave
the index and empty only the tag below the top. -/
def Obligations.PushAndPopSequences : Prop :=
  ∀ s : State,
    (∀ l : List Instr, (∀ i ∈ l, i = .fpuPush ∨ i = .fpuPop) → l.count .fpuPush = l.count .fpuPop →
      ∃ t, runAll l s = .next t ∧ t.top = s.top)
      ∧ (∃ t, runAll [.fpuPush, .fpuPop] s = .next t ∧ t.top = s.top
        ∧ ∀ k, k < 8 → t.ftag.getLsbD k = if k = (s.top.toNat + 7) % 8 then true else s.ftag.getLsbD k)
      ∧ (∃ t, runAll (List.replicate 8 .fpuPush ++ List.replicate 8 .fpuPop) s = .next t ∧ t.top = s.top ∧ t.ftag = 0xFF)
      ∧ ∃ t, runAll (List.replicate 8 [Instr.fpuPush, .fpuPop]).flatten s = .next t ∧ t.top = s.top
        ∧ ∀ k, k < 8 → t.ftag.getLsbD k = if k = (s.top.toNat + 7) % 8 then true else s.ftag.getLsbD k

/-- 43_fpu_stack.md R196; 20_memory.md R53 to R59: an FPU_LD80 whose accesses complete returns at byte j the byte at
`(A + j) mod 2^W`, little-endian, unless other agents write that byte while the accesses up to its own run; it issues its two
reads in order and changes nothing else. Guest memory changes only where other agents write. What they write while an access
runs is an input with the command, any value (log 13). -/
def Obligations.LoadReturnsTheTenBytes : Prop :=
  ∀ s : State, completes s →
    ∃ t, exec .fpuLd80 s = .next t ∧ t.fault = none
      ∧ (∀ j, j < 10 → ¬ disturbs s.cfg s.port.first (transferAddr s j) →
        (8 ≤ j → ¬ disturbs s.cfg s.port.second (transferAddr s j)) →
          t.out80.extractLsb' (8 * j) 8 = Memory.read s.mem (transferAddr s j))
      ∧ (∀ q, ¬ disturbs s.cfg s.port.first q → ¬ disturbs s.cfg s.port.second q →
        Memory.read t.mem q = Memory.read s.mem q)
      ∧ (s.port.first.disturbance = [] → s.port.second.disturbance = [] → t.mem = s.mem)
      ∧ t.settled
        = { s with
            mem := t.mem
            memPort := s.memPort ++ [Request.read (portAddr s) 8, .read (secondAddr s) 2] }.settled

/-- 43_fpu_stack.md R197; 20_memory.md R53 to R59: an FPU_ST80 whose accesses complete stores byte j of `v` at
`(A + j) mod 2^W`, little-endian, where other agents write no such byte from its own access on; it leaves every other byte that
other agents do not write, issues its two writes in order, and changes nothing else. What they write while an access runs is
an input with the command, any value (log 13). -/
def Obligations.StoreWritesTheTenBytes : Prop :=
  ∀ s : State, completes s → Memory.wf s.mem = true →
    ∃ t, exec .fpuSt80 s = .next t ∧ t.fault = none
      ∧ (∀ j, j < 10 → (j < 8 → ¬ disturbs s.cfg s.port.first (transferAddr s j)) →
        ¬ disturbs s.cfg s.port.second (transferAddr s j) →
          Memory.read t.mem (transferAddr s j) = s.port.v.extractLsb' (8 * j) 8)
      ∧ (∀ q, (∀ j, j < 10 → q ≠ transferAddr s j) → ¬ disturbs s.cfg s.port.first q →
        ¬ disturbs s.cfg s.port.second q → Memory.read t.mem q = Memory.read s.mem q)
      ∧ t.settled
        = { s with
            mem := t.mem
            memPort := s.memPort ++ [Request.write (portAddr s) 8 (s.port.v.extractLsb' 0 64),
              .write (secondAddr s) 2 ((s.port.v.extractLsb' 64 16).setWidth 64)] }.settled

/-- 43_fpu_stack.md R201; 60_exceptions.md R222: a failing first write reports itself, leaves each byte of A..A+7 old or new, and
no second write is issued; a failing second write reports itself, leaves the first done and each of A+8, A+9 old or new. So for
every byte that other agents do not write meanwhile; no other byte of those, and no block state, changes, and nothing is
logged. Which bytes landed, and what other agents write meanwhile, are the collaborator's answer, an input with the command,
any value (log 13). -/
def Obligations.FailedStoresLeaveOldOrNewBytes : Prop :=
  ∀ (s : State) (landed : BitVec 8), Memory.wf s.mem = true →
    (s.port.first.failure = some landed →
      ∃ t, exec .fpuSt80 s = .next t ∧ t.fault = some (.memFault (portAddr s) 8 .write)
        ∧ (∀ j, j < 8 → ¬ disturbs s.cfg s.port.first (transferAddr s j) →
          Memory.read t.mem (transferAddr s j)
            = if landed.getLsbD j then s.port.v.extractLsb' (8 * j) 8 else Memory.read s.mem (transferAddr s j))
        ∧ (∀ q, (∀ j, j < 8 → q ≠ transferAddr s j) → ¬ disturbs s.cfg s.port.first q →
          Memory.read t.mem q = Memory.read s.mem q)
        ∧ t.settled
          = { s with
              mem := t.mem
              memPort := s.memPort ++ [Request.write (portAddr s) 8 (s.port.v.extractLsb' 0 64)] }.settled)
      ∧ (s.port.first.failure = none → s.port.second.failure = some landed →
        ∃ t, exec .fpuSt80 s = .next t ∧ t.fault = some (.memFault (secondAddr s) 2 .write)
          ∧ (∀ j, j < 8 → ¬ disturbs s.cfg s.port.first (transferAddr s j) →
            ¬ disturbs s.cfg s.port.second (transferAddr s j) →
              Memory.read t.mem (transferAddr s j) = s.port.v.extractLsb' (8 * j) 8)
          ∧ (∀ j, j < 2 → (landed.getLsbD j = false → ¬ disturbs s.cfg s.port.first (transferAddr s (8 + j))) →
            ¬ disturbs s.cfg s.port.second (transferAddr s (8 + j)) →
              Memory.read t.mem (transferAddr s (8 + j))
                = if landed.getLsbD j then s.port.v.extractLsb' (8 * (8 + j)) 8
                  else Memory.read s.mem (transferAddr s (8 + j)))
          ∧ (∀ q, (∀ j, j < 10 → q ≠ transferAddr s j) → ¬ disturbs s.cfg s.port.first q →
            ¬ disturbs s.cfg s.port.second q → Memory.read t.mem q = Memory.read s.mem q)
          ∧ t.settled
            = { s with
                mem := t.mem
                memPort := s.memPort ++ [Request.write (portAddr s) 8 (s.port.v.extractLsb' 0 64),
                  .write (secondAddr s) 2 ((s.port.v.extractLsb' 64 16).setWidth 64)] }.settled)

/-- 43_fpu_stack.md R196; 60_exceptions.md R222: a load whose first access fails reports it and issues no second; one whose
second fails reports that one. No block state changes, nothing is logged, and guest memory changes only where other agents
write meanwhile. -/
def Obligations.FailedLoadsReportTheAccess : Prop :=
  ∀ s : State, Memory.wf s.mem = true →
    (s.port.first.failure ≠ none →
      ∃ t, exec .fpuLd80 s = .next t ∧ t.fault = some (.memFault (portAddr s) 8 .read)
        ∧ (∀ q, ¬ disturbs s.cfg s.port.first q → Memory.read t.mem q = Memory.read s.mem q)
        ∧ t.settled = { s with mem := t.mem, memPort := s.memPort ++ [Request.read (portAddr s) 8] }.settled)
      ∧ (s.port.first.failure = none → s.port.second.failure ≠ none →
        ∃ t, exec .fpuLd80 s = .next t ∧ t.fault = some (.memFault (secondAddr s) 2 .read)
          ∧ (∀ q, ¬ disturbs s.cfg s.port.first q → ¬ disturbs s.cfg s.port.second q →
            Memory.read t.mem q = Memory.read s.mem q)
          ∧ t.settled
            = { s with
                mem := t.mem
                memPort := s.memPort ++ [Request.read (portAddr s) 8, .read (secondAddr s) 2] }.settled)

/-- 43_fpu_stack.md R202: a store of x at A, then a load at A, returns x, for every 80-bit x and every A, when no access of
either fails and no other agent writes the bytes A..A+9, neither while an access runs nor between the two commands: elsewhere
other agents may write at any time. -/
def Obligations.StoreThenLoadReturnsThePattern : Prop :=
  ∀ (s t : State) (m : Memory) (first second : Answer), completes s → Memory.wf s.mem = true →
    exec .fpuSt80 s = .next t →
    (∀ j, j < 10 → ¬ disturbs s.cfg s.port.first (transferAddr s j) ∧ ¬ disturbs s.cfg s.port.second (transferAddr s j)) →
    (∀ j, j < 10 → Memory.read m (transferAddr s j) = Memory.read t.mem (transferAddr s j)) →
    first.failure = none → second.failure = none →
    (∀ j, j < 10 → ¬ disturbs s.cfg first (transferAddr s j) ∧ ¬ disturbs s.cfg second (transferAddr s j)) →
      ∃ u, exec .fpuLd80 { t with mem := m, port := { t.port with first := first, second := second } } = .next u
        ∧ u.fault = none ∧ u.out80 = s.port.v

/-- 20_memory.md R52, R55, R58: only FPU_LD80 and FPU_ST80 use the memory port or touch guest memory; whatever the alignment and
whatever other agents do, every byte that is neither stored to nor written by them stays as it was. -/
def Obligations.OnlyTransfersTouchGuestMemory : Prop :=
  ∀ (i : Instr) (s t : State), exec i s = .next t → Memory.wf s.mem = true →
    (i ≠ .fpuLd80 → i ≠ .fpuSt80 → t.mem = s.mem ∧ t.memPort = s.memPort)
      ∧ ∀ q, (i = .fpuSt80 → ∀ j, j < 10 → q ≠ transferAddr s j) →
        ¬ disturbs s.cfg s.port.first q → ¬ disturbs s.cfg s.port.second q →
          Memory.read t.mem q = Memory.read s.mem q

/-! ### The boundary units -/

/-- 60_exceptions.md R230, R231: FEAT_LD stores `a` and re-derives both mode flags from it alone; FEAT_RD returns `feat`, or lma
in bit 0 and svme in bit 1; nothing else changes. -/
def Obligations.FeatureRegisterLoadsAndReads : Prop :=
  ∀ s : State, s.cfg.boundaryUnits = true →
    succeeds (exec .featLd s)
      { s with
        feat := s.port.a
        lma := s.port.a.getLsbD s.cfg.lmaBit.toNat
        svme := s.port.a.getLsbD s.cfg.svmeBit.toNat }
      ∧ answers (exec (.featRd 0) s) s s.feat
      ∧ ∃ t, exec (.featRd 1) s = .next t ∧ t.fault = none ∧ t.settled = s.settled
        ∧ t.out.toNat = s.lma.toNat + 2 * s.svme.toNat

/-- 60_exceptions.md R232, R233: HAS_WORK returns 1 exactly when one of the four wake conditions holds, else 0, and changes
nothing. -/
def Obligations.HasWorkTestsTheFourConditions : Prop :=
  ∀ s : State, s.cfg.boundaryUnits = true →
    answers (exec .hasWork s) s
      (if (s.irq &&& s.cfg.irqHard ≠ 0 ∧ s.base.getLsbD 9 = true) ∨ s.irq &&& s.cfg.irqNmi ≠ 0
          ∨ s.irq &&& s.cfg.irqInit ≠ 0 ∨ s.irq &&& s.cfg.irqSipi ≠ 0 then 1 else 0)

/-- 60_exceptions.md R234, R235: HALT_SET enters HALTED; CHK_HALT returns 0 when running, wakes a halted block with pending work
and returns 0, else returns 1; it clears no request bit; a second CHK_HALT after a wake returns 0 again. -/
def Obligations.HaltAndWake : Prop :=
  ∀ s : State, s.cfg.boundaryUnits = true →
    succeeds (exec .haltSet s) { s with halted := true }
      ∧ (s.halted = false → answers (exec .chkHalt s) s 0)
      ∧ (s.halted = true → hasPendingWork s = true →
        answers (exec .chkHalt s) { s with halted := false } 0
          ∧ answers (runAll [.chkHalt, .chkHalt] s) { s with halted := false } 0)
      ∧ (s.halted = true → hasPendingWork s = false → answers (exec .chkHalt s) s 1)

/-- 60_exceptions.md R236, R237, R238: IRQ_OR sets the bits of `a[31:0]`, IRQ_CLR clears them, IRQ_RD returns `irq`; nothing else
changes; and two IRQ_OR commute. -/
def Obligations.InterruptRequestBits : Prop :=
  ∀ s : State, s.cfg.boundaryUnits = true →
    succeeds (exec .irqOr s) { s with irq := s.irq ||| s.port.a.setWidth 32 }
      ∧ succeeds (exec .irqClr s) { s with irq := s.irq &&& ~~~s.port.a.setWidth 32 }
      ∧ answers (exec .irqRd s) s (s.irq.setWidth 64)
      ∧ ∀ (c d : Command) (rest : List Event), decode c.cmd = .ok .irqOr → decode d.cmd = .ok .irqOr →
        ∃ t u t' u',
          step { s with inputs := .command c :: .command d :: rest } = .next t ∧ step t = .next u
            ∧ step { s with inputs := .command d :: .command c :: rest } = .next t' ∧ step t' = .next u'
            ∧ u.irq = u'.irq ∧ u.irq = s.irq ||| c.a.setWidth 32 ||| d.a.setWidth 32

/-! ### The whole machine -/

/-- 30_encoding.md R84, R85: each pseudo-command assembles to the word of the table and has the effect of the command it is
another name of; any line, assembled and presented, runs as the instruction it spells. The model's choices in it: a
pseudo-command has an arm of its own (log 10); a line is taken as its tokens, a port not written is 0, and the command is the
owner's (log 16); it is presented through the queue of inputs (log 8). -/
def Obligations.PseudoCommandsAreTheirExpansions : Prop :=
  ∀ s : State,
    (assemble { mnemonic := "CC_DIRECT", operand := .none } = some (.ofWord 0x40040001)
      ∧ assemble { mnemonic := "CLD", operand := .none } = some (.ofWord 0x78000000)
      ∧ assemble { mnemonic := "STD", operand := .none } = some (.ofWord 0x78000001)
      ∧ assemble { mnemonic := "FPU_RESET_STATE", operand := .none }
        = some { Command.ofWord 0x94000000 with a := 0xFF00 })
      ∧ exec .ccDirect s = exec (.ccWr true false false 1) s ∧ exec .cld s = exec (.dfWr false) s
      ∧ exec .std s = exec (.dfWr true) s
      ∧ exec .fpuResetState { s with port := { s.port with a := 0xFF00 } }
        = exec .fpuStWr { s with port := { s.port with a := 0xFF00 } }
      ∧ succeeds (exec .ccDirect s) { s with tag := 1, restorePending := false }
      ∧ ∀ (l : AsmLine) (i : Instr) (c : Command) (rest : List Event),
        asmInstr l = some i → assemble l = some c → s.inputs = .command c :: rest →
          step s = exec i (presented s c rest)

/-- 10_state.md R37, R44: what writes each piece of state. For every command that answers a next state, a piece not in its row
is unchanged. The parameters, the input ports and the pending inputs are written by no command. -/
def Obligations.EachCommandWritesOnlyItsOwnState : Prop :=
  ∀ (i : Instr) (s t : State), exec i s = .next t →
    (t.gpr = s.gpr ∨ i = .syncOut ∨ ∃ r, i = .gprWr r)
      ∧ ((t.loc = s.loc ∧ t.lvalid = s.lvalid) ∨ i = .syncIn ∨ ∃ r, i = .locWr r)
      ∧ (t.ip = s.ip ∨ i = .ipWr)
      ∧ (t.tag = s.tag ∨ i = .eflRestoreD ∨ i = .ccDirect ∨ ∃ ws wd g, i = .ccWr true ws wd g)
      ∧ (t.src = s.src ∨ i = .eflRestore ∨ i = .eflRestoreD ∨ ∃ wt wd g, i = .ccWr wt true wd g)
      ∧ (t.dst = s.dst ∨ ∃ wt ws g, i = .ccWr wt ws true g)
      ∧ (t.restorePending = s.restorePending ∨ i = .eflRestore ∨ i = .eflRestoreD ∨ i = .ccDirect
        ∨ ∃ ws wd g, i = .ccWr true ws wd g)
      ∧ (t.base = s.base ∨ i = .eflRestore ∨ i = .eflRestoreD ∨ i = .eflBaseWr)
      ∧ (t.df = s.df ∨ i = .eflRestore ∨ i = .eflRestoreD ∨ i = .cld ∨ i = .std ∨ ∃ d, i = .dfWr d)
      ∧ (t.slots = s.slots ∨ ∃ k, i = .fpuWr k)
      ∧ ((t.top = s.top ∧ t.ftag = s.ftag) ∨ i = .fpuPush ∨ i = .fpuPop ∨ i = .fpuStWr ∨ i = .fpuResetState)
      ∧ (t.irq = s.irq ∨ i = .irqOr ∨ i = .irqClr)
      ∧ (t.halted = s.halted ∨ i = .haltSet ∨ i = .chkHalt)
      ∧ ((t.feat = s.feat ∧ t.lma = s.lma ∧ t.svme = s.svme) ∨ i = .featLd)
      ∧ t.cfg = s.cfg ∧ t.port = s.port ∧ t.inputs = s.inputs

/-- 60_exceptions.md R221: every command ends in exactly one of success, a reported memory fault, a model fault; a model fault
changes no state but the fault log, to which it is added at the end; a memory fault and a success log nothing; so no command
clears the log. -/
def Obligations.ModelFaultsAreRecordedAndChangeNothing : Prop :=
  ∀ (i : Instr) (s t : State), exec i s = .next t →
    (t.fault = none ∧ t.faultLog = s.faultLog)
      ∨ (∃ a n d, t.fault = some (.memFault a n d) ∧ t.faultLog = s.faultLog ∧ (i = .fpuLd80 ∨ i = .fpuSt80))
      ∨ ∃ f, t.fault = some (.model f) ∧ t.settled = { s with faultLog := s.faultLog ++ [f] }.settled

/-- 42_eflags.md R168; 10_state.md R28, R30: reset has, and every step, a reset applied again included, keeps `base[1]` = 1 and
`base & OWNED_MASK` = 0, and `df` at +1 or -1. -/
def Obligations.StepsKeepTheBaseWordAndTheDirection : Prop :=
  (∀ p : Params, (State.atReset p).baseOk = true ∧ (State.atReset p).dfOk = true)
    ∧ ∀ s t : State, step s = .next t → (s.baseOk = true → t.baseOk = true) ∧ (s.dfOk = true → t.dfOk = true)

/-- 10_state.md R43: reset has, and every step keeps, the derived mode flags equal to the two designated bits of the
feature-control register. -/
def Obligations.StepsKeepTheModeFlagsDerived : Prop :=
  (∀ p : Params, (State.atReset p).modesOk = true)
    ∧ ∀ s t : State, s.modesOk = true → step s = .next t → t.modesOk = true

/-- Every step, whatever other agents and the collaborator do, keeps guest memory in canonical form and its addresses W-bit
ones. The canonical form is the model's own representation, with an unlisted byte reading 0 (log 12), and no rule of the spec;
that an address has W bits is 20_memory.md R50 to R52. -/
def Obligations.StepsKeepGuestMemoryCanonical : Prop :=
  ∀ s t : State, s.memOk = true → step s = .next t → t.memOk = true

/-- No step changes the parameters (00_scope.md R8; that they stand in the state is log 1). In a block of legal parameters every
step keeps each W-bit register a W-bit value and only bound registers written locally (10_state.md R21 to R26). That a W-bit value
stands in 64 bits and that the entries at or above NREGS are 0 is the model's choice (log 2), and so is that the boundary
fields stay at their reset values when the units are absent (log 17). -/
def Obligations.StepsKeepTheWidthsAndTheParameters : Prop :=
  ∀ s t : State, step s = .next t →
    t.cfg = s.cfg ∧ (s.cfg.legal = true → s.widthsOk = true → t.widthsOk = true)
      ∧ (s.boundaryOk = true → t.boundaryOk = true)
end

