-- ==== Sys2Proof/Laws/Decode.lean ====
section
/-! SUPPORT. What each format of 30_encoding.md R73 accepts, and that the encoder's word of a format gives back the word its
fields were read from. -/

namespace Sys2Proof

/-! ### What a format accepts -/

theorem formatN_ok {w : BitVec 32} {i j : Instr} (h : formatN w i = .ok j) : w.extractLsb' 0 26 = 0 ∧ j = i := by
  unfold formatN at h
  split at h
  · exact ⟨‹_›, by cases h; rfl⟩
  · cases h

theorem formatR_ok {w : BitVec 32} {i : BitVec 4 → Instr} {j : Instr} (h : formatR w i = .ok j) :
    w.extractLsb' 0 22 = 0 ∧ j = i (w.extractLsb' 22 4) := by
  unfold formatR at h
  split at h
  · exact ⟨‹_›, by cases h; rfl⟩
  · cases h

theorem formatS_ok {w : BitVec 32} {i : BitVec 3 → Instr} {j : Instr} (h : formatS w i = .ok j) :
    (w.extractLsb' 22 4 = 0 ∧ w.extractLsb' 0 19 = 0) ∧ j = i (w.extractLsb' 19 3) := by
  unfold formatS at h
  split at h
  · exact ⟨‹_›, by cases h; rfl⟩
  · cases h

theorem formatC_ok {w : BitVec 32} {i : Bool → Bool → Bool → BitVec 8 → Instr} {j : Instr} (h : formatC w i = .ok j) :
    (w.extractLsb' 19 7 = 0 ∧ w.extractLsb' 8 8 = 0)
      ∧ j = i (w.getLsbD 18) (w.getLsbD 17) (w.getLsbD 16) (w.extractLsb' 0 8) := by
  unfold formatC at h
  split at h
  · exact ⟨‹_›, by cases h; rfl⟩
  · cases h

theorem formatK_ok {w : BitVec 32} {i : BitVec 2 → Instr} {j : Instr} (h : formatK w i = .ok j) :
    (w.extractLsb' 18 8 = 0 ∧ w.extractLsb' 0 16 = 0) ∧ j = i (w.extractLsb' 16 2) := by
  unfold formatK at h
  split at h
  · exact ⟨‹_›, by cases h; rfl⟩
  · cases h

theorem formatD_ok {w : BitVec 32} {i : Bool → Instr} {j : Instr} (h : formatD w i = .ok j) :
    w.extractLsb' 1 25 = 0 ∧ j = i (w.getLsbD 0) := by
  unfold formatD at h
  split at h
  · exact ⟨‹_›, by cases h; rfl⟩
  · cases h

/-! ### The word of the fields read -/

/-- One bit of a word as a field of width 1. -/
theorem ofBool_getLsbD (w : BitVec 32) (k : Nat) : BitVec.ofBool (w.getLsbD k) = w.extractLsb' k 1 := by
  ext i hi
  have : i = 0 := by omega
  subst this
  simp

theorem wordN_of {w : BitVec 32} {op : BitVec 6} (h : w.extractLsb' 26 6 = op) (h0 : w.extractLsb' 0 26 = 0) :
    wordN op = w := by
  unfold wordN
  rw [← h, show (0#26) = w.extractLsb' 0 26 from h0.symm,
    BitVec.extractLsb'_append_extractLsb'_eq_extractLsb' (by decide)]
  simp

theorem wordR_of {w : BitVec 32} {op : BitVec 6} (h : w.extractLsb' 26 6 = op) (h0 : w.extractLsb' 0 22 = 0) :
    wordR op (w.extractLsb' 22 4) = w := by
  unfold wordR
  rw [← h, show (0#22) = w.extractLsb' 0 22 from h0.symm]
  repeat rw [BitVec.extractLsb'_append_extractLsb'_eq_extractLsb' (by decide)]
  simp

theorem wordS_of {w : BitVec 32} {op : BitVec 6} (h : w.extractLsb' 26 6 = op)
    (h0 : w.extractLsb' 22 4 = 0 ∧ w.extractLsb' 0 19 = 0) : wordS op (w.extractLsb' 19 3) = w := by
  unfold wordS
  rw [← h, show (0#4) = w.extractLsb' 22 4 from h0.1.symm, show (0#19) = w.extractLsb' 0 19 from h0.2.symm]
  repeat rw [BitVec.extractLsb'_append_extractLsb'_eq_extractLsb' (by decide)]
  simp

theorem wordC_of {w : BitVec 32} {op : BitVec 6} (h : w.extractLsb' 26 6 = op)
    (h0 : w.extractLsb' 19 7 = 0 ∧ w.extractLsb' 8 8 = 0) :
    wordC op (w.getLsbD 18) (w.getLsbD 17) (w.getLsbD 16) (w.extractLsb' 0 8) = w := by
  unfold wordC
  rw [← h, ofBool_getLsbD, ofBool_getLsbD, ofBool_getLsbD, show (0#7) = w.extractLsb' 19 7 from h0.1.symm,
    show (0#8) = w.extractLsb' 8 8 from h0.2.symm]
  repeat rw [BitVec.extractLsb'_append_extractLsb'_eq_extractLsb' (by decide)]
  simp

theorem wordK_of {w : BitVec 32} {op : BitVec 6} (h : w.extractLsb' 26 6 = op)
    (h0 : w.extractLsb' 18 8 = 0 ∧ w.extractLsb' 0 16 = 0) : wordK op (w.extractLsb' 16 2) = w := by
  unfold wordK
  rw [← h, show (0#8) = w.extractLsb' 18 8 from h0.1.symm, show (0#16) = w.extractLsb' 0 16 from h0.2.symm]
  repeat rw [BitVec.extractLsb'_append_extractLsb'_eq_extractLsb' (by decide)]
  simp

theorem wordD_of {w : BitVec 32} {op : BitVec 6} (h : w.extractLsb' 26 6 = op) (h0 : w.extractLsb' 1 25 = 0) :
    wordD op (w.getLsbD 0) = w := by
  unfold wordD
  rw [← h, ofBool_getLsbD, show (0#25) = w.extractLsb' 1 25 from h0.symm]
  repeat rw [BitVec.extractLsb'_append_extractLsb'_eq_extractLsb' (by decide)]
  simp

end Sys2Proof
end

