-- ==== Sys2Proof/Laws/State.lean ====
section
/-! SUPPORT. One lemma per field per named update of the state, each true by rfl: no later proof unfolds a record update. -/

namespace Sys2Proof.Machine

/-! ### done -/

@[simp] theorem State.done_cfg (s : State) : (s.done).cfg = s.cfg := rfl
@[simp] theorem State.done_gpr (s : State) : (s.done).gpr = s.gpr := rfl
@[simp] theorem State.done_ip (s : State) : (s.done).ip = s.ip := rfl
@[simp] theorem State.done_loc (s : State) : (s.done).loc = s.loc := rfl
@[simp] theorem State.done_lvalid (s : State) : (s.done).lvalid = s.lvalid := rfl
@[simp] theorem State.done_tag (s : State) : (s.done).tag = s.tag := rfl
@[simp] theorem State.done_src (s : State) : (s.done).src = s.src := rfl
@[simp] theorem State.done_dst (s : State) : (s.done).dst = s.dst := rfl
@[simp] theorem State.done_restorePending (s : State) : (s.done).restorePending = s.restorePending := rfl
@[simp] theorem State.done_base (s : State) : (s.done).base = s.base := rfl
@[simp] theorem State.done_df (s : State) : (s.done).df = s.df := rfl
@[simp] theorem State.done_slots (s : State) : (s.done).slots = s.slots := rfl
@[simp] theorem State.done_top (s : State) : (s.done).top = s.top := rfl
@[simp] theorem State.done_ftag (s : State) : (s.done).ftag = s.ftag := rfl
@[simp] theorem State.done_irq (s : State) : (s.done).irq = s.irq := rfl
@[simp] theorem State.done_halted (s : State) : (s.done).halted = s.halted := rfl
@[simp] theorem State.done_feat (s : State) : (s.done).feat = s.feat := rfl
@[simp] theorem State.done_lma (s : State) : (s.done).lma = s.lma := rfl
@[simp] theorem State.done_svme (s : State) : (s.done).svme = s.svme := rfl
@[simp] theorem State.done_faultLog (s : State) : (s.done).faultLog = s.faultLog := rfl
@[simp] theorem State.done_mem (s : State) : (s.done).mem = s.mem := rfl
@[simp] theorem State.done_inputs (s : State) : (s.done).inputs = s.inputs := rfl
@[simp] theorem State.done_port (s : State) : (s.done).port = s.port := rfl
@[simp] theorem State.done_memPort (s : State) : (s.done).memPort = s.memPort := rfl
@[simp] theorem State.done_out (s : State) : (s.done).out = Config.freeOut s.draws := rfl
@[simp] theorem State.done_out80 (s : State) : (s.done).out80 = Config.freeOut80 s.draws := rfl
@[simp] theorem State.done_fault (s : State) : (s.done).fault = none := rfl
@[simp] theorem State.done_draws (s : State) : (s.done).draws = s.draws + 1 := rfl

/-! ### driveOut -/

@[simp] theorem State.driveOut_cfg (s : State) (v : BitVec 64) : (s.driveOut v).cfg = s.cfg := rfl
@[simp] theorem State.driveOut_gpr (s : State) (v : BitVec 64) : (s.driveOut v).gpr = s.gpr := rfl
@[simp] theorem State.driveOut_ip (s : State) (v : BitVec 64) : (s.driveOut v).ip = s.ip := rfl
@[simp] theorem State.driveOut_loc (s : State) (v : BitVec 64) : (s.driveOut v).loc = s.loc := rfl
@[simp] theorem State.driveOut_lvalid (s : State) (v : BitVec 64) : (s.driveOut v).lvalid = s.lvalid := rfl
@[simp] theorem State.driveOut_tag (s : State) (v : BitVec 64) : (s.driveOut v).tag = s.tag := rfl
@[simp] theorem State.driveOut_src (s : State) (v : BitVec 64) : (s.driveOut v).src = s.src := rfl
@[simp] theorem State.driveOut_dst (s : State) (v : BitVec 64) : (s.driveOut v).dst = s.dst := rfl
@[simp] theorem State.driveOut_restorePending (s : State) (v : BitVec 64) :
    (s.driveOut v).restorePending = s.restorePending := rfl
@[simp] theorem State.driveOut_base (s : State) (v : BitVec 64) : (s.driveOut v).base = s.base := rfl
@[simp] theorem State.driveOut_df (s : State) (v : BitVec 64) : (s.driveOut v).df = s.df := rfl
@[simp] theorem State.driveOut_slots (s : State) (v : BitVec 64) : (s.driveOut v).slots = s.slots := rfl
@[simp] theorem State.driveOut_top (s : State) (v : BitVec 64) : (s.driveOut v).top = s.top := rfl
@[simp] theorem State.driveOut_ftag (s : State) (v : BitVec 64) : (s.driveOut v).ftag = s.ftag := rfl
@[simp] theorem State.driveOut_irq (s : State) (v : BitVec 64) : (s.driveOut v).irq = s.irq := rfl
@[simp] theorem State.driveOut_halted (s : State) (v : BitVec 64) : (s.driveOut v).halted = s.halted := rfl
@[simp] theorem State.driveOut_feat (s : State) (v : BitVec 64) : (s.driveOut v).feat = s.feat := rfl
@[simp] theorem State.driveOut_lma (s : State) (v : BitVec 64) : (s.driveOut v).lma = s.lma := rfl
@[simp] theorem State.driveOut_svme (s : State) (v : BitVec 64) : (s.driveOut v).svme = s.svme := rfl
@[simp] theorem State.driveOut_faultLog (s : State) (v : BitVec 64) : (s.driveOut v).faultLog = s.faultLog := rfl
@[simp] theorem State.driveOut_mem (s : State) (v : BitVec 64) : (s.driveOut v).mem = s.mem := rfl
@[simp] theorem State.driveOut_inputs (s : State) (v : BitVec 64) : (s.driveOut v).inputs = s.inputs := rfl
@[simp] theorem State.driveOut_port (s : State) (v : BitVec 64) : (s.driveOut v).port = s.port := rfl
@[simp] theorem State.driveOut_memPort (s : State) (v : BitVec 64) : (s.driveOut v).memPort = s.memPort := rfl
@[simp] theorem State.driveOut_out (s : State) (v : BitVec 64) : (s.driveOut v).out = v := rfl
@[simp] theorem State.driveOut_out80 (s : State) (v : BitVec 64) :
    (s.driveOut v).out80 = Config.freeOut80 s.draws := rfl
@[simp] theorem State.driveOut_fault (s : State) (v : BitVec 64) : (s.driveOut v).fault = none := rfl
@[simp] theorem State.driveOut_draws (s : State) (v : BitVec 64) : (s.driveOut v).draws = s.draws + 1 := rfl

/-! ### driveOut80 -/

@[simp] theorem State.driveOut80_cfg (s : State) (v : Slot) : (s.driveOut80 v).cfg = s.cfg := rfl
@[simp] theorem State.driveOut80_gpr (s : State) (v : Slot) : (s.driveOut80 v).gpr = s.gpr := rfl
@[simp] theorem State.driveOut80_ip (s : State) (v : Slot) : (s.driveOut80 v).ip = s.ip := rfl
@[simp] theorem State.driveOut80_loc (s : State) (v : Slot) : (s.driveOut80 v).loc = s.loc := rfl
@[simp] theorem State.driveOut80_lvalid (s : State) (v : Slot) : (s.driveOut80 v).lvalid = s.lvalid := rfl
@[simp] theorem State.driveOut80_tag (s : State) (v : Slot) : (s.driveOut80 v).tag = s.tag := rfl
@[simp] theorem State.driveOut80_src (s : State) (v : Slot) : (s.driveOut80 v).src = s.src := rfl
@[simp] theorem State.driveOut80_dst (s : State) (v : Slot) : (s.driveOut80 v).dst = s.dst := rfl
@[simp] theorem State.driveOut80_restorePending (s : State) (v : Slot) :
    (s.driveOut80 v).restorePending = s.restorePending := rfl
@[simp] theorem State.driveOut80_base (s : State) (v : Slot) : (s.driveOut80 v).base = s.base := rfl
@[simp] theorem State.driveOut80_df (s : State) (v : Slot) : (s.driveOut80 v).df = s.df := rfl
@[simp] theorem State.driveOut80_slots (s : State) (v : Slot) : (s.driveOut80 v).slots = s.slots := rfl
@[simp] theorem State.driveOut80_top (s : State) (v : Slot) : (s.driveOut80 v).top = s.top := rfl
@[simp] theorem State.driveOut80_ftag (s : State) (v : Slot) : (s.driveOut80 v).ftag = s.ftag := rfl
@[simp] theorem State.driveOut80_irq (s : State) (v : Slot) : (s.driveOut80 v).irq = s.irq := rfl
@[simp] theorem State.driveOut80_halted (s : State) (v : Slot) : (s.driveOut80 v).halted = s.halted := rfl
@[simp] theorem State.driveOut80_feat (s : State) (v : Slot) : (s.driveOut80 v).feat = s.feat := rfl
@[simp] theorem State.driveOut80_lma (s : State) (v : Slot) : (s.driveOut80 v).lma = s.lma := rfl
@[simp] theorem State.driveOut80_svme (s : State) (v : Slot) : (s.driveOut80 v).svme = s.svme := rfl
@[simp] theorem State.driveOut80_faultLog (s : State) (v : Slot) : (s.driveOut80 v).faultLog = s.faultLog := rfl
@[simp] theorem State.driveOut80_mem (s : State) (v : Slot) : (s.driveOut80 v).mem = s.mem := rfl
@[simp] theorem State.driveOut80_inputs (s : State) (v : Slot) : (s.driveOut80 v).inputs = s.inputs := rfl
@[simp] theorem State.driveOut80_port (s : State) (v : Slot) : (s.driveOut80 v).port = s.port := rfl
@[simp] theorem State.driveOut80_memPort (s : State) (v : Slot) : (s.driveOut80 v).memPort = s.memPort := rfl
@[simp] theorem State.driveOut80_out (s : State) (v : Slot) : (s.driveOut80 v).out = Config.freeOut s.draws := rfl
@[simp] theorem State.driveOut80_out80 (s : State) (v : Slot) : (s.driveOut80 v).out80 = v := rfl
@[simp] theorem State.driveOut80_fault (s : State) (v : Slot) : (s.driveOut80 v).fault = none := rfl
@[simp] theorem State.driveOut80_draws (s : State) (v : Slot) : (s.driveOut80 v).draws = s.draws + 1 := rfl

/-! ### raise -/

@[simp] theorem State.raise_cfg (s : State) (f : PortFault) : (s.raise f).cfg = s.cfg := rfl
@[simp] theorem State.raise_gpr (s : State) (f : PortFault) : (s.raise f).gpr = s.gpr := rfl
@[simp] theorem State.raise_ip (s : State) (f : PortFault) : (s.raise f).ip = s.ip := rfl
@[simp] theorem State.raise_loc (s : State) (f : PortFault) : (s.raise f).loc = s.loc := rfl
@[simp] theorem State.raise_lvalid (s : State) (f : PortFault) : (s.raise f).lvalid = s.lvalid := rfl
@[simp] theorem State.raise_tag (s : State) (f : PortFault) : (s.raise f).tag = s.tag := rfl
@[simp] theorem State.raise_src (s : State) (f : PortFault) : (s.raise f).src = s.src := rfl
@[simp] theorem State.raise_dst (s : State) (f : PortFault) : (s.raise f).dst = s.dst := rfl
@[simp] theorem State.raise_restorePending (s : State) (f : PortFault) :
    (s.raise f).restorePending = s.restorePending := rfl
@[simp] theorem State.raise_base (s : State) (f : PortFault) : (s.raise f).base = s.base := rfl
@[simp] theorem State.raise_df (s : State) (f : PortFault) : (s.raise f).df = s.df := rfl
@[simp] theorem State.raise_slots (s : State) (f : PortFault) : (s.raise f).slots = s.slots := rfl
@[simp] theorem State.raise_top (s : State) (f : PortFault) : (s.raise f).top = s.top := rfl
@[simp] theorem State.raise_ftag (s : State) (f : PortFault) : (s.raise f).ftag = s.ftag := rfl
@[simp] theorem State.raise_irq (s : State) (f : PortFault) : (s.raise f).irq = s.irq := rfl
@[simp] theorem State.raise_halted (s : State) (f : PortFault) : (s.raise f).halted = s.halted := rfl
@[simp] theorem State.raise_feat (s : State) (f : PortFault) : (s.raise f).feat = s.feat := rfl
@[simp] theorem State.raise_lma (s : State) (f : PortFault) : (s.raise f).lma = s.lma := rfl
@[simp] theorem State.raise_svme (s : State) (f : PortFault) : (s.raise f).svme = s.svme := rfl
@[simp] theorem State.raise_faultLog (s : State) (f : PortFault) : (s.raise f).faultLog = logged s.faultLog f := rfl
@[simp] theorem State.raise_mem (s : State) (f : PortFault) : (s.raise f).mem = s.mem := rfl
@[simp] theorem State.raise_inputs (s : State) (f : PortFault) : (s.raise f).inputs = s.inputs := rfl
@[simp] theorem State.raise_port (s : State) (f : PortFault) : (s.raise f).port = s.port := rfl
@[simp] theorem State.raise_memPort (s : State) (f : PortFault) : (s.raise f).memPort = s.memPort := rfl
@[simp] theorem State.raise_out (s : State) (f : PortFault) : (s.raise f).out = Config.freeOut s.draws := rfl
@[simp] theorem State.raise_out80 (s : State) (f : PortFault) : (s.raise f).out80 = Config.freeOut80 s.draws := rfl
@[simp] theorem State.raise_fault (s : State) (f : PortFault) : (s.raise f).fault = some f := rfl
@[simp] theorem State.raise_draws (s : State) (f : PortFault) : (s.raise f).draws = s.draws + 1 := rfl

/-! ### present -/

@[simp] theorem State.present_cfg (s : State) (c : Command) : (s.present c).cfg = s.cfg := rfl
@[simp] theorem State.present_gpr (s : State) (c : Command) : (s.present c).gpr = s.gpr := rfl
@[simp] theorem State.present_ip (s : State) (c : Command) : (s.present c).ip = s.ip := rfl
@[simp] theorem State.present_loc (s : State) (c : Command) : (s.present c).loc = s.loc := rfl
@[simp] theorem State.present_lvalid (s : State) (c : Command) : (s.present c).lvalid = s.lvalid := rfl
@[simp] theorem State.present_tag (s : State) (c : Command) : (s.present c).tag = s.tag := rfl
@[simp] theorem State.present_src (s : State) (c : Command) : (s.present c).src = s.src := rfl
@[simp] theorem State.present_dst (s : State) (c : Command) : (s.present c).dst = s.dst := rfl
@[simp] theorem State.present_restorePending (s : State) (c : Command) :
    (s.present c).restorePending = s.restorePending := rfl
@[simp] theorem State.present_base (s : State) (c : Command) : (s.present c).base = s.base := rfl
@[simp] theorem State.present_df (s : State) (c : Command) : (s.present c).df = s.df := rfl
@[simp] theorem State.present_slots (s : State) (c : Command) : (s.present c).slots = s.slots := rfl
@[simp] theorem State.present_top (s : State) (c : Command) : (s.present c).top = s.top := rfl
@[simp] theorem State.present_ftag (s : State) (c : Command) : (s.present c).ftag = s.ftag := rfl
@[simp] theorem State.present_irq (s : State) (c : Command) : (s.present c).irq = s.irq := rfl
@[simp] theorem State.present_halted (s : State) (c : Command) : (s.present c).halted = s.halted := rfl
@[simp] theorem State.present_feat (s : State) (c : Command) : (s.present c).feat = s.feat := rfl
@[simp] theorem State.present_lma (s : State) (c : Command) : (s.present c).lma = s.lma := rfl
@[simp] theorem State.present_svme (s : State) (c : Command) : (s.present c).svme = s.svme := rfl
@[simp] theorem State.present_faultLog (s : State) (c : Command) : (s.present c).faultLog = s.faultLog := rfl
@[simp] theorem State.present_mem (s : State) (c : Command) : (s.present c).mem = s.mem := rfl
@[simp] theorem State.present_inputs (s : State) (c : Command) : (s.present c).inputs = s.inputs := rfl
@[simp] theorem State.present_port (s : State) (c : Command) : (s.present c).port = c := rfl
@[simp] theorem State.present_memPort (s : State) (c : Command) : (s.present c).memPort = [] := rfl
@[simp] theorem State.present_out (s : State) (c : Command) : (s.present c).out = s.out := rfl
@[simp] theorem State.present_out80 (s : State) (c : Command) : (s.present c).out80 = s.out80 := rfl
@[simp] theorem State.present_fault (s : State) (c : Command) : (s.present c).fault = s.fault := rfl
@[simp] theorem State.present_draws (s : State) (c : Command) : (s.present c).draws = s.draws := rfl

/-! ### gprSet -/

@[simp] theorem State.gprSet_cfg (s : State) (r : BitVec 4) (v : Word) : (s.gprSet r v).cfg = s.cfg := rfl
@[simp] theorem State.gprSet_gpr (s : State) (r : BitVec 4) (v : Word) :
    (s.gprSet r v).gpr = s.gpr.set r.toNat v r.isLt := rfl
@[simp] theorem State.gprSet_ip (s : State) (r : BitVec 4) (v : Word) : (s.gprSet r v).ip = s.ip := rfl
@[simp] theorem State.gprSet_loc (s : State) (r : BitVec 4) (v : Word) : (s.gprSet r v).loc = s.loc := rfl
@[simp] theorem State.gprSet_lvalid (s : State) (r : BitVec 4) (v : Word) : (s.gprSet r v).lvalid = s.lvalid := rfl
@[simp] theorem State.gprSet_tag (s : State) (r : BitVec 4) (v : Word) : (s.gprSet r v).tag = s.tag := rfl
@[simp] theorem State.gprSet_src (s : State) (r : BitVec 4) (v : Word) : (s.gprSet r v).src = s.src := rfl
@[simp] theorem State.gprSet_dst (s : State) (r : BitVec 4) (v : Word) : (s.gprSet r v).dst = s.dst := rfl
@[simp] theorem State.gprSet_restorePending (s : State) (r : BitVec 4) (v : Word) :
    (s.gprSet r v).restorePending = s.restorePending := rfl
@[simp] theorem State.gprSet_base (s : State) (r : BitVec 4) (v : Word) : (s.gprSet r v).base = s.base := rfl
@[simp] theorem State.gprSet_df (s : State) (r : BitVec 4) (v : Word) : (s.gprSet r v).df = s.df := rfl
@[simp] theorem State.gprSet_slots (s : State) (r : BitVec 4) (v : Word) : (s.gprSet r v).slots = s.slots := rfl
@[simp] theorem State.gprSet_top (s : State) (r : BitVec 4) (v : Word) : (s.gprSet r v).top = s.top := rfl
@[simp] theorem State.gprSet_ftag (s : State) (r : BitVec 4) (v : Word) : (s.gprSet r v).ftag = s.ftag := rfl
@[simp] theorem State.gprSet_irq (s : State) (r : BitVec 4) (v : Word) : (s.gprSet r v).irq = s.irq := rfl
@[simp] theorem State.gprSet_halted (s : State) (r : BitVec 4) (v : Word) : (s.gprSet r v).halted = s.halted := rfl
@[simp] theorem State.gprSet_feat (s : State) (r : BitVec 4) (v : Word) : (s.gprSet r v).feat = s.feat := rfl
@[simp] theorem State.gprSet_lma (s : State) (r : BitVec 4) (v : Word) : (s.gprSet r v).lma = s.lma := rfl
@[simp] theorem State.gprSet_svme (s : State) (r : BitVec 4) (v : Word) : (s.gprSet r v).svme = s.svme := rfl
@[simp] theorem State.gprSet_faultLog (s : State) (r : BitVec 4) (v : Word) :
    (s.gprSet r v).faultLog = s.faultLog := rfl
@[simp] theorem State.gprSet_mem (s : State) (r : BitVec 4) (v : Word) : (s.gprSet r v).mem = s.mem := rfl
@[simp] theorem State.gprSet_inputs (s : State) (r : BitVec 4) (v : Word) : (s.gprSet r v).inputs = s.inputs := rfl
@[simp] theorem State.gprSet_port (s : State) (r : BitVec 4) (v : Word) : (s.gprSet r v).port = s.port := rfl
@[simp] theorem State.gprSet_memPort (s : State) (r : BitVec 4) (v : Word) : (s.gprSet r v).memPort = s.memPort := rfl
@[simp] theorem State.gprSet_out (s : State) (r : BitVec 4) (v : Word) : (s.gprSet r v).out = s.out := rfl
@[simp] theorem State.gprSet_out80 (s : State) (r : BitVec 4) (v : Word) : (s.gprSet r v).out80 = s.out80 := rfl
@[simp] theorem State.gprSet_fault (s : State) (r : BitVec 4) (v : Word) : (s.gprSet r v).fault = s.fault := rfl
@[simp] theorem State.gprSet_draws (s : State) (r : BitVec 4) (v : Word) : (s.gprSet r v).draws = s.draws := rfl

/-! ### locSet -/

@[simp] theorem State.locSet_cfg (s : State) (r : BitVec 4) (v : Word) : (s.locSet r v).cfg = s.cfg := rfl
@[simp] theorem State.locSet_gpr (s : State) (r : BitVec 4) (v : Word) : (s.locSet r v).gpr = s.gpr := rfl
@[simp] theorem State.locSet_ip (s : State) (r : BitVec 4) (v : Word) : (s.locSet r v).ip = s.ip := rfl
@[simp] theorem State.locSet_loc (s : State) (r : BitVec 4) (v : Word) :
    (s.locSet r v).loc = s.loc.set r.toNat v r.isLt := rfl
@[simp] theorem State.locSet_lvalid (s : State) (r : BitVec 4) (v : Word) :
    (s.locSet r v).lvalid = s.lvalid.set r.toNat true r.isLt := rfl
@[simp] theorem State.locSet_tag (s : State) (r : BitVec 4) (v : Word) : (s.locSet r v).tag = s.tag := rfl
@[simp] theorem State.locSet_src (s : State) (r : BitVec 4) (v : Word) : (s.locSet r v).src = s.src := rfl
@[simp] theorem State.locSet_dst (s : State) (r : BitVec 4) (v : Word) : (s.locSet r v).dst = s.dst := rfl
@[simp] theorem State.locSet_restorePending (s : State) (r : BitVec 4) (v : Word) :
    (s.locSet r v).restorePending = s.restorePending := rfl
@[simp] theorem State.locSet_base (s : State) (r : BitVec 4) (v : Word) : (s.locSet r v).base = s.base := rfl
@[simp] theorem State.locSet_df (s : State) (r : BitVec 4) (v : Word) : (s.locSet r v).df = s.df := rfl
@[simp] theorem State.locSet_slots (s : State) (r : BitVec 4) (v : Word) : (s.locSet r v).slots = s.slots := rfl
@[simp] theorem State.locSet_top (s : State) (r : BitVec 4) (v : Word) : (s.locSet r v).top = s.top := rfl
@[simp] theorem State.locSet_ftag (s : State) (r : BitVec 4) (v : Word) : (s.locSet r v).ftag = s.ftag := rfl
@[simp] theorem State.locSet_irq (s : State) (r : BitVec 4) (v : Word) : (s.locSet r v).irq = s.irq := rfl
@[simp] theorem State.locSet_halted (s : State) (r : BitVec 4) (v : Word) : (s.locSet r v).halted = s.halted := rfl
@[simp] theorem State.locSet_feat (s : State) (r : BitVec 4) (v : Word) : (s.locSet r v).feat = s.feat := rfl
@[simp] theorem State.locSet_lma (s : State) (r : BitVec 4) (v : Word) : (s.locSet r v).lma = s.lma := rfl
@[simp] theorem State.locSet_svme (s : State) (r : BitVec 4) (v : Word) : (s.locSet r v).svme = s.svme := rfl
@[simp] theorem State.locSet_faultLog (s : State) (r : BitVec 4) (v : Word) :
    (s.locSet r v).faultLog = s.faultLog := rfl
@[simp] theorem State.locSet_mem (s : State) (r : BitVec 4) (v : Word) : (s.locSet r v).mem = s.mem := rfl
@[simp] theorem State.locSet_inputs (s : State) (r : BitVec 4) (v : Word) : (s.locSet r v).inputs = s.inputs := rfl
@[simp] theorem State.locSet_port (s : State) (r : BitVec 4) (v : Word) : (s.locSet r v).port = s.port := rfl
@[simp] theorem State.locSet_memPort (s : State) (r : BitVec 4) (v : Word) : (s.locSet r v).memPort = s.memPort := rfl
@[simp] theorem State.locSet_out (s : State) (r : BitVec 4) (v : Word) : (s.locSet r v).out = s.out := rfl
@[simp] theorem State.locSet_out80 (s : State) (r : BitVec 4) (v : Word) : (s.locSet r v).out80 = s.out80 := rfl
@[simp] theorem State.locSet_fault (s : State) (r : BitVec 4) (v : Word) : (s.locSet r v).fault = s.fault := rfl
@[simp] theorem State.locSet_draws (s : State) (r : BitVec 4) (v : Word) : (s.locSet r v).draws = s.draws := rfl

/-! ### slotSet -/

@[simp] theorem State.slotSet_cfg (s : State) (k : BitVec 3) (v : Slot) : (s.slotSet k v).cfg = s.cfg := rfl
@[simp] theorem State.slotSet_gpr (s : State) (k : BitVec 3) (v : Slot) : (s.slotSet k v).gpr = s.gpr := rfl
@[simp] theorem State.slotSet_ip (s : State) (k : BitVec 3) (v : Slot) : (s.slotSet k v).ip = s.ip := rfl
@[simp] theorem State.slotSet_loc (s : State) (k : BitVec 3) (v : Slot) : (s.slotSet k v).loc = s.loc := rfl
@[simp] theorem State.slotSet_lvalid (s : State) (k : BitVec 3) (v : Slot) : (s.slotSet k v).lvalid = s.lvalid := rfl
@[simp] theorem State.slotSet_tag (s : State) (k : BitVec 3) (v : Slot) : (s.slotSet k v).tag = s.tag := rfl
@[simp] theorem State.slotSet_src (s : State) (k : BitVec 3) (v : Slot) : (s.slotSet k v).src = s.src := rfl
@[simp] theorem State.slotSet_dst (s : State) (k : BitVec 3) (v : Slot) : (s.slotSet k v).dst = s.dst := rfl
@[simp] theorem State.slotSet_restorePending (s : State) (k : BitVec 3) (v : Slot) :
    (s.slotSet k v).restorePending = s.restorePending := rfl
@[simp] theorem State.slotSet_base (s : State) (k : BitVec 3) (v : Slot) : (s.slotSet k v).base = s.base := rfl
@[simp] theorem State.slotSet_df (s : State) (k : BitVec 3) (v : Slot) : (s.slotSet k v).df = s.df := rfl
@[simp] theorem State.slotSet_slots (s : State) (k : BitVec 3) (v : Slot) :
    (s.slotSet k v).slots = s.slots.set k.toNat v k.isLt := rfl
@[simp] theorem State.slotSet_top (s : State) (k : BitVec 3) (v : Slot) : (s.slotSet k v).top = s.top := rfl
@[simp] theorem State.slotSet_ftag (s : State) (k : BitVec 3) (v : Slot) : (s.slotSet k v).ftag = s.ftag := rfl
@[simp] theorem State.slotSet_irq (s : State) (k : BitVec 3) (v : Slot) : (s.slotSet k v).irq = s.irq := rfl
@[simp] theorem State.slotSet_halted (s : State) (k : BitVec 3) (v : Slot) : (s.slotSet k v).halted = s.halted := rfl
@[simp] theorem State.slotSet_feat (s : State) (k : BitVec 3) (v : Slot) : (s.slotSet k v).feat = s.feat := rfl
@[simp] theorem State.slotSet_lma (s : State) (k : BitVec 3) (v : Slot) : (s.slotSet k v).lma = s.lma := rfl
@[simp] theorem State.slotSet_svme (s : State) (k : BitVec 3) (v : Slot) : (s.slotSet k v).svme = s.svme := rfl
@[simp] theorem State.slotSet_faultLog (s : State) (k : BitVec 3) (v : Slot) :
    (s.slotSet k v).faultLog = s.faultLog := rfl
@[simp] theorem State.slotSet_mem (s : State) (k : BitVec 3) (v : Slot) : (s.slotSet k v).mem = s.mem := rfl
@[simp] theorem State.slotSet_inputs (s : State) (k : BitVec 3) (v : Slot) : (s.slotSet k v).inputs = s.inputs := rfl
@[simp] theorem State.slotSet_port (s : State) (k : BitVec 3) (v : Slot) : (s.slotSet k v).port = s.port := rfl
@[simp] theorem State.slotSet_memPort (s : State) (k : BitVec 3) (v : Slot) : (s.slotSet k v).memPort = s.memPort := rfl
@[simp] theorem State.slotSet_out (s : State) (k : BitVec 3) (v : Slot) : (s.slotSet k v).out = s.out := rfl
@[simp] theorem State.slotSet_out80 (s : State) (k : BitVec 3) (v : Slot) : (s.slotSet k v).out80 = s.out80 := rfl
@[simp] theorem State.slotSet_fault (s : State) (k : BitVec 3) (v : Slot) : (s.slotSet k v).fault = s.fault := rfl
@[simp] theorem State.slotSet_draws (s : State) (k : BitVec 3) (v : Slot) : (s.slotSet k v).draws = s.draws := rfl

/-! ### fpuLoadWord -/

@[simp] theorem State.fpuLoadWord_cfg (s : State) (a : BitVec 64) : (s.fpuLoadWord a).cfg = s.cfg := rfl
@[simp] theorem State.fpuLoadWord_gpr (s : State) (a : BitVec 64) : (s.fpuLoadWord a).gpr = s.gpr := rfl
@[simp] theorem State.fpuLoadWord_ip (s : State) (a : BitVec 64) : (s.fpuLoadWord a).ip = s.ip := rfl
@[simp] theorem State.fpuLoadWord_loc (s : State) (a : BitVec 64) : (s.fpuLoadWord a).loc = s.loc := rfl
@[simp] theorem State.fpuLoadWord_lvalid (s : State) (a : BitVec 64) : (s.fpuLoadWord a).lvalid = s.lvalid := rfl
@[simp] theorem State.fpuLoadWord_tag (s : State) (a : BitVec 64) : (s.fpuLoadWord a).tag = s.tag := rfl
@[simp] theorem State.fpuLoadWord_src (s : State) (a : BitVec 64) : (s.fpuLoadWord a).src = s.src := rfl
@[simp] theorem State.fpuLoadWord_dst (s : State) (a : BitVec 64) : (s.fpuLoadWord a).dst = s.dst := rfl
@[simp] theorem State.fpuLoadWord_restorePending (s : State) (a : BitVec 64) :
    (s.fpuLoadWord a).restorePending = s.restorePending := rfl
@[simp] theorem State.fpuLoadWord_base (s : State) (a : BitVec 64) : (s.fpuLoadWord a).base = s.base := rfl
@[simp] theorem State.fpuLoadWord_df (s : State) (a : BitVec 64) : (s.fpuLoadWord a).df = s.df := rfl
@[simp] theorem State.fpuLoadWord_slots (s : State) (a : BitVec 64) : (s.fpuLoadWord a).slots = s.slots := rfl
@[simp] theorem State.fpuLoadWord_top (s : State) (a : BitVec 64) : (s.fpuLoadWord a).top = a.extractLsb' 0 3 := rfl
@[simp] theorem State.fpuLoadWord_ftag (s : State) (a : BitVec 64) : (s.fpuLoadWord a).ftag = a.extractLsb' 8 8 := rfl
@[simp] theorem State.fpuLoadWord_irq (s : State) (a : BitVec 64) : (s.fpuLoadWord a).irq = s.irq := rfl
@[simp] theorem State.fpuLoadWord_halted (s : State) (a : BitVec 64) : (s.fpuLoadWord a).halted = s.halted := rfl
@[simp] theorem State.fpuLoadWord_feat (s : State) (a : BitVec 64) : (s.fpuLoadWord a).feat = s.feat := rfl
@[simp] theorem State.fpuLoadWord_lma (s : State) (a : BitVec 64) : (s.fpuLoadWord a).lma = s.lma := rfl
@[simp] theorem State.fpuLoadWord_svme (s : State) (a : BitVec 64) : (s.fpuLoadWord a).svme = s.svme := rfl
@[simp] theorem State.fpuLoadWord_faultLog (s : State) (a : BitVec 64) : (s.fpuLoadWord a).faultLog = s.faultLog := rfl
@[simp] theorem State.fpuLoadWord_mem (s : State) (a : BitVec 64) : (s.fpuLoadWord a).mem = s.mem := rfl
@[simp] theorem State.fpuLoadWord_inputs (s : State) (a : BitVec 64) : (s.fpuLoadWord a).inputs = s.inputs := rfl
@[simp] theorem State.fpuLoadWord_port (s : State) (a : BitVec 64) : (s.fpuLoadWord a).port = s.port := rfl
@[simp] theorem State.fpuLoadWord_memPort (s : State) (a : BitVec 64) : (s.fpuLoadWord a).memPort = s.memPort := rfl
@[simp] theorem State.fpuLoadWord_out (s : State) (a : BitVec 64) : (s.fpuLoadWord a).out = s.out := rfl
@[simp] theorem State.fpuLoadWord_out80 (s : State) (a : BitVec 64) : (s.fpuLoadWord a).out80 = s.out80 := rfl
@[simp] theorem State.fpuLoadWord_fault (s : State) (a : BitVec 64) : (s.fpuLoadWord a).fault = s.fault := rfl
@[simp] theorem State.fpuLoadWord_draws (s : State) (a : BitVec 64) : (s.fpuLoadWord a).draws = s.draws := rfl

/-! ### restoreEflags -/

@[simp] theorem State.restoreEflags_cfg (s : State) (direct : Bool) (v m : BitVec 32) :
    (s.restoreEflags direct v m).cfg = s.cfg := rfl
@[simp] theorem State.restoreEflags_gpr (s : State) (direct : Bool) (v m : BitVec 32) :
    (s.restoreEflags direct v m).gpr = s.gpr := rfl
@[simp] theorem State.restoreEflags_ip (s : State) (direct : Bool) (v m : BitVec 32) :
    (s.restoreEflags direct v m).ip = s.ip := rfl
@[simp] theorem State.restoreEflags_loc (s : State) (direct : Bool) (v m : BitVec 32) :
    (s.restoreEflags direct v m).loc = s.loc := rfl
@[simp] theorem State.restoreEflags_lvalid (s : State) (direct : Bool) (v m : BitVec 32) :
    (s.restoreEflags direct v m).lvalid = s.lvalid := rfl
@[simp] theorem State.restoreEflags_tag (s : State) (direct : Bool) (v m : BitVec 32) :
    (s.restoreEflags direct v m).tag = if direct then 1 else s.tag := rfl
@[simp] theorem State.restoreEflags_src (s : State) (direct : Bool) (v m : BitVec 32) :
    (s.restoreEflags direct v m).src = (v &&& ccMask).setWidth 64 := rfl
@[simp] theorem State.restoreEflags_dst (s : State) (direct : Bool) (v m : BitVec 32) :
    (s.restoreEflags direct v m).dst = s.dst := rfl
@[simp] theorem State.restoreEflags_restorePending (s : State) (direct : Bool) (v m : BitVec 32) :
    (s.restoreEflags direct v m).restorePending = !direct := rfl
@[simp] theorem State.restoreEflags_base (s : State) (direct : Bool) (v m : BitVec 32) :
    (s.restoreEflags direct v m).base = baseMerge s.base v m := rfl
@[simp] theorem State.restoreEflags_df (s : State) (direct : Bool) (v m : BitVec 32) :
    (s.restoreEflags direct v m).df = dfWord (v.getLsbD 10) := rfl
@[simp] theorem State.restoreEflags_slots (s : State) (direct : Bool) (v m : BitVec 32) :
    (s.restoreEflags direct v m).slots = s.slots := rfl
@[simp] theorem State.restoreEflags_top (s : State) (direct : Bool) (v m : BitVec 32) :
    (s.restoreEflags direct v m).top = s.top := rfl
@[simp] theorem State.restoreEflags_ftag (s : State) (direct : Bool) (v m : BitVec 32) :
    (s.restoreEflags direct v m).ftag = s.ftag := rfl
@[simp] theorem State.restoreEflags_irq (s : State) (direct : Bool) (v m : BitVec 32) :
    (s.restoreEflags direct v m).irq = s.irq := rfl
@[simp] theorem State.restoreEflags_halted (s : State) (direct : Bool) (v m : BitVec 32) :
    (s.restoreEflags direct v m).halted = s.halted := rfl
@[simp] theorem State.restoreEflags_feat (s : State) (direct : Bool) (v m : BitVec 32) :
    (s.restoreEflags direct v m).feat = s.feat := rfl
@[simp] theorem State.restoreEflags_lma (s : State) (direct : Bool) (v m : BitVec 32) :
    (s.restoreEflags direct v m).lma = s.lma := rfl
@[simp] theorem State.restoreEflags_svme (s : State) (direct : Bool) (v m : BitVec 32) :
    (s.restoreEflags direct v m).svme = s.svme := rfl
@[simp] theorem State.restoreEflags_faultLog (s : State) (direct : Bool) (v m : BitVec 32) :
    (s.restoreEflags direct v m).faultLog = s.faultLog := rfl
@[simp] theorem State.restoreEflags_mem (s : State) (direct : Bool) (v m : BitVec 32) :
    (s.restoreEflags direct v m).mem = s.mem := rfl
@[simp] theorem State.restoreEflags_inputs (s : State) (direct : Bool) (v m : BitVec 32) :
    (s.restoreEflags direct v m).inputs = s.inputs := rfl
@[simp] theorem State.restoreEflags_port (s : State) (direct : Bool) (v m : BitVec 32) :
    (s.restoreEflags direct v m).port = s.port := rfl
@[simp] theorem State.restoreEflags_memPort (s : State) (direct : Bool) (v m : BitVec 32) :
    (s.restoreEflags direct v m).memPort = s.memPort := rfl
@[simp] theorem State.restoreEflags_out (s : State) (direct : Bool) (v m : BitVec 32) :
    (s.restoreEflags direct v m).out = s.out := rfl
@[simp] theorem State.restoreEflags_out80 (s : State) (direct : Bool) (v m : BitVec 32) :
    (s.restoreEflags direct v m).out80 = s.out80 := rfl
@[simp] theorem State.restoreEflags_fault (s : State) (direct : Bool) (v m : BitVec 32) :
    (s.restoreEflags direct v m).fault = s.fault := rfl
@[simp] theorem State.restoreEflags_draws (s : State) (direct : Bool) (v m : BitVec 32) :
    (s.restoreEflags direct v m).draws = s.draws := rfl

/-! ### mirrorIn -/

@[simp] theorem State.mirrorIn_cfg (s : State) : (s.mirrorIn).cfg = s.cfg := rfl
@[simp] theorem State.mirrorIn_gpr (s : State) : (s.mirrorIn).gpr = s.gpr := rfl
@[simp] theorem State.mirrorIn_ip (s : State) : (s.mirrorIn).ip = s.ip := rfl
@[simp] theorem State.mirrorIn_loc (s : State) : (s.mirrorIn).loc = copyBound s.cfg s.gpr s.loc := rfl
@[simp] theorem State.mirrorIn_lvalid (s : State) :
    (s.mirrorIn).lvalid = copyBound s.cfg (Vector.replicate 16 true) s.lvalid := rfl
@[simp] theorem State.mirrorIn_tag (s : State) : (s.mirrorIn).tag = s.tag := rfl
@[simp] theorem State.mirrorIn_src (s : State) : (s.mirrorIn).src = s.src := rfl
@[simp] theorem State.mirrorIn_dst (s : State) : (s.mirrorIn).dst = s.dst := rfl
@[simp] theorem State.mirrorIn_restorePending (s : State) : (s.mirrorIn).restorePending = s.restorePending := rfl
@[simp] theorem State.mirrorIn_base (s : State) : (s.mirrorIn).base = s.base := rfl
@[simp] theorem State.mirrorIn_df (s : State) : (s.mirrorIn).df = s.df := rfl
@[simp] theorem State.mirrorIn_slots (s : State) : (s.mirrorIn).slots = s.slots := rfl
@[simp] theorem State.mirrorIn_top (s : State) : (s.mirrorIn).top = s.top := rfl
@[simp] theorem State.mirrorIn_ftag (s : State) : (s.mirrorIn).ftag = s.ftag := rfl
@[simp] theorem State.mirrorIn_irq (s : State) : (s.mirrorIn).irq = s.irq := rfl
@[simp] theorem State.mirrorIn_halted (s : State) : (s.mirrorIn).halted = s.halted := rfl
@[simp] theorem State.mirrorIn_feat (s : State) : (s.mirrorIn).feat = s.feat := rfl
@[simp] theorem State.mirrorIn_lma (s : State) : (s.mirrorIn).lma = s.lma := rfl
@[simp] theorem State.mirrorIn_svme (s : State) : (s.mirrorIn).svme = s.svme := rfl
@[simp] theorem State.mirrorIn_faultLog (s : State) : (s.mirrorIn).faultLog = s.faultLog := rfl
@[simp] theorem State.mirrorIn_mem (s : State) : (s.mirrorIn).mem = s.mem := rfl
@[simp] theorem State.mirrorIn_inputs (s : State) : (s.mirrorIn).inputs = s.inputs := rfl
@[simp] theorem State.mirrorIn_port (s : State) : (s.mirrorIn).port = s.port := rfl
@[simp] theorem State.mirrorIn_memPort (s : State) : (s.mirrorIn).memPort = s.memPort := rfl
@[simp] theorem State.mirrorIn_out (s : State) : (s.mirrorIn).out = s.out := rfl
@[simp] theorem State.mirrorIn_out80 (s : State) : (s.mirrorIn).out80 = s.out80 := rfl
@[simp] theorem State.mirrorIn_fault (s : State) : (s.mirrorIn).fault = s.fault := rfl
@[simp] theorem State.mirrorIn_draws (s : State) : (s.mirrorIn).draws = s.draws := rfl

/-! ### mirrorOut -/

@[simp] theorem State.mirrorOut_cfg (s : State) : (s.mirrorOut).cfg = s.cfg := rfl
@[simp] theorem State.mirrorOut_gpr (s : State) : (s.mirrorOut).gpr = copyBound s.cfg s.loc s.gpr := rfl
@[simp] theorem State.mirrorOut_ip (s : State) : (s.mirrorOut).ip = s.ip := rfl
@[simp] theorem State.mirrorOut_loc (s : State) : (s.mirrorOut).loc = s.loc := rfl
@[simp] theorem State.mirrorOut_lvalid (s : State) : (s.mirrorOut).lvalid = s.lvalid := rfl
@[simp] theorem State.mirrorOut_tag (s : State) : (s.mirrorOut).tag = s.tag := rfl
@[simp] theorem State.mirrorOut_src (s : State) : (s.mirrorOut).src = s.src := rfl
@[simp] theorem State.mirrorOut_dst (s : State) : (s.mirrorOut).dst = s.dst := rfl
@[simp] theorem State.mirrorOut_restorePending (s : State) : (s.mirrorOut).restorePending = s.restorePending := rfl
@[simp] theorem State.mirrorOut_base (s : State) : (s.mirrorOut).base = s.base := rfl
@[simp] theorem State.mirrorOut_df (s : State) : (s.mirrorOut).df = s.df := rfl
@[simp] theorem State.mirrorOut_slots (s : State) : (s.mirrorOut).slots = s.slots := rfl
@[simp] theorem State.mirrorOut_top (s : State) : (s.mirrorOut).top = s.top := rfl
@[simp] theorem State.mirrorOut_ftag (s : State) : (s.mirrorOut).ftag = s.ftag := rfl
@[simp] theorem State.mirrorOut_irq (s : State) : (s.mirrorOut).irq = s.irq := rfl
@[simp] theorem State.mirrorOut_halted (s : State) : (s.mirrorOut).halted = s.halted := rfl
@[simp] theorem State.mirrorOut_feat (s : State) : (s.mirrorOut).feat = s.feat := rfl
@[simp] theorem State.mirrorOut_lma (s : State) : (s.mirrorOut).lma = s.lma := rfl
@[simp] theorem State.mirrorOut_svme (s : State) : (s.mirrorOut).svme = s.svme := rfl
@[simp] theorem State.mirrorOut_faultLog (s : State) : (s.mirrorOut).faultLog = s.faultLog := rfl
@[simp] theorem State.mirrorOut_mem (s : State) : (s.mirrorOut).mem = s.mem := rfl
@[simp] theorem State.mirrorOut_inputs (s : State) : (s.mirrorOut).inputs = s.inputs := rfl
@[simp] theorem State.mirrorOut_port (s : State) : (s.mirrorOut).port = s.port := rfl
@[simp] theorem State.mirrorOut_memPort (s : State) : (s.mirrorOut).memPort = s.memPort := rfl
@[simp] theorem State.mirrorOut_out (s : State) : (s.mirrorOut).out = s.out := rfl
@[simp] theorem State.mirrorOut_out80 (s : State) : (s.mirrorOut).out80 = s.out80 := rfl
@[simp] theorem State.mirrorOut_fault (s : State) : (s.mirrorOut).fault = s.fault := rfl
@[simp] theorem State.mirrorOut_draws (s : State) : (s.mirrorOut).draws = s.draws := rfl

/-! ### push -/

@[simp] theorem State.push_cfg (s : State) : (s.push).cfg = s.cfg := rfl
@[simp] theorem State.push_gpr (s : State) : (s.push).gpr = s.gpr := rfl
@[simp] theorem State.push_ip (s : State) : (s.push).ip = s.ip := rfl
@[simp] theorem State.push_loc (s : State) : (s.push).loc = s.loc := rfl
@[simp] theorem State.push_lvalid (s : State) : (s.push).lvalid = s.lvalid := rfl
@[simp] theorem State.push_tag (s : State) : (s.push).tag = s.tag := rfl
@[simp] theorem State.push_src (s : State) : (s.push).src = s.src := rfl
@[simp] theorem State.push_dst (s : State) : (s.push).dst = s.dst := rfl
@[simp] theorem State.push_restorePending (s : State) : (s.push).restorePending = s.restorePending := rfl
@[simp] theorem State.push_base (s : State) : (s.push).base = s.base := rfl
@[simp] theorem State.push_df (s : State) : (s.push).df = s.df := rfl
@[simp] theorem State.push_slots (s : State) : (s.push).slots = s.slots := rfl
@[simp] theorem State.push_top (s : State) : (s.push).top = s.top - 1 := rfl
@[simp] theorem State.push_ftag (s : State) : (s.push).ftag = ftagSet s.ftag (s.top - 1) false := rfl
@[simp] theorem State.push_irq (s : State) : (s.push).irq = s.irq := rfl
@[simp] theorem State.push_halted (s : State) : (s.push).halted = s.halted := rfl
@[simp] theorem State.push_feat (s : State) : (s.push).feat = s.feat := rfl
@[simp] theorem State.push_lma (s : State) : (s.push).lma = s.lma := rfl
@[simp] theorem State.push_svme (s : State) : (s.push).svme = s.svme := rfl
@[simp] theorem State.push_faultLog (s : State) : (s.push).faultLog = s.faultLog := rfl
@[simp] theorem State.push_mem (s : State) : (s.push).mem = s.mem := rfl
@[simp] theorem State.push_inputs (s : State) : (s.push).inputs = s.inputs := rfl
@[simp] theorem State.push_port (s : State) : (s.push).port = s.port := rfl
@[simp] theorem State.push_memPort (s : State) : (s.push).memPort = s.memPort := rfl
@[simp] theorem State.push_out (s : State) : (s.push).out = s.out := rfl
@[simp] theorem State.push_out80 (s : State) : (s.push).out80 = s.out80 := rfl
@[simp] theorem State.push_fault (s : State) : (s.push).fault = s.fault := rfl
@[simp] theorem State.push_draws (s : State) : (s.push).draws = s.draws := rfl

/-! ### pop -/

@[simp] theorem State.pop_cfg (s : State) : (s.pop).cfg = s.cfg := rfl
@[simp] theorem State.pop_gpr (s : State) : (s.pop).gpr = s.gpr := rfl
@[simp] theorem State.pop_ip (s : State) : (s.pop).ip = s.ip := rfl
@[simp] theorem State.pop_loc (s : State) : (s.pop).loc = s.loc := rfl
@[simp] theorem State.pop_lvalid (s : State) : (s.pop).lvalid = s.lvalid := rfl
@[simp] theorem State.pop_tag (s : State) : (s.pop).tag = s.tag := rfl
@[simp] theorem State.pop_src (s : State) : (s.pop).src = s.src := rfl
@[simp] theorem State.pop_dst (s : State) : (s.pop).dst = s.dst := rfl
@[simp] theorem State.pop_restorePending (s : State) : (s.pop).restorePending = s.restorePending := rfl
@[simp] theorem State.pop_base (s : State) : (s.pop).base = s.base := rfl
@[simp] theorem State.pop_df (s : State) : (s.pop).df = s.df := rfl
@[simp] theorem State.pop_slots (s : State) : (s.pop).slots = s.slots := rfl
@[simp] theorem State.pop_top (s : State) : (s.pop).top = s.top + 1 := rfl
@[simp] theorem State.pop_ftag (s : State) : (s.pop).ftag = ftagSet s.ftag s.top true := rfl
@[simp] theorem State.pop_irq (s : State) : (s.pop).irq = s.irq := rfl
@[simp] theorem State.pop_halted (s : State) : (s.pop).halted = s.halted := rfl
@[simp] theorem State.pop_feat (s : State) : (s.pop).feat = s.feat := rfl
@[simp] theorem State.pop_lma (s : State) : (s.pop).lma = s.lma := rfl
@[simp] theorem State.pop_svme (s : State) : (s.pop).svme = s.svme := rfl
@[simp] theorem State.pop_faultLog (s : State) : (s.pop).faultLog = s.faultLog := rfl
@[simp] theorem State.pop_mem (s : State) : (s.pop).mem = s.mem := rfl
@[simp] theorem State.pop_inputs (s : State) : (s.pop).inputs = s.inputs := rfl
@[simp] theorem State.pop_port (s : State) : (s.pop).port = s.port := rfl
@[simp] theorem State.pop_memPort (s : State) : (s.pop).memPort = s.memPort := rfl
@[simp] theorem State.pop_out (s : State) : (s.pop).out = s.out := rfl
@[simp] theorem State.pop_out80 (s : State) : (s.pop).out80 = s.out80 := rfl
@[simp] theorem State.pop_fault (s : State) : (s.pop).fault = s.fault := rfl
@[simp] theorem State.pop_draws (s : State) : (s.pop).draws = s.draws := rfl

/-! ### ccRecord -/

@[simp] theorem State.ccRecord_cfg (s : State) (wt ws wd : Bool) (t : BitVec 8) (a b : Word) :
    (s.ccRecord wt ws wd t a b).cfg = s.cfg := rfl
@[simp] theorem State.ccRecord_gpr (s : State) (wt ws wd : Bool) (t : BitVec 8) (a b : Word) :
    (s.ccRecord wt ws wd t a b).gpr = s.gpr := rfl
@[simp] theorem State.ccRecord_ip (s : State) (wt ws wd : Bool) (t : BitVec 8) (a b : Word) :
    (s.ccRecord wt ws wd t a b).ip = s.ip := rfl
@[simp] theorem State.ccRecord_loc (s : State) (wt ws wd : Bool) (t : BitVec 8) (a b : Word) :
    (s.ccRecord wt ws wd t a b).loc = s.loc := rfl
@[simp] theorem State.ccRecord_lvalid (s : State) (wt ws wd : Bool) (t : BitVec 8) (a b : Word) :
    (s.ccRecord wt ws wd t a b).lvalid = s.lvalid := rfl
@[simp] theorem State.ccRecord_tag (s : State) (wt ws wd : Bool) (t : BitVec 8) (a b : Word) :
    (s.ccRecord wt ws wd t a b).tag = if wt then t else s.tag := rfl
@[simp] theorem State.ccRecord_src (s : State) (wt ws wd : Bool) (t : BitVec 8) (a b : Word) :
    (s.ccRecord wt ws wd t a b).src = if ws then a else s.src := rfl
@[simp] theorem State.ccRecord_dst (s : State) (wt ws wd : Bool) (t : BitVec 8) (a b : Word) :
    (s.ccRecord wt ws wd t a b).dst = if wd then b else s.dst := rfl
@[simp] theorem State.ccRecord_restorePending (s : State) (wt ws wd : Bool) (t : BitVec 8) (a b : Word) :
    (s.ccRecord wt ws wd t a b).restorePending = if wt then false else s.restorePending := rfl
@[simp] theorem State.ccRecord_base (s : State) (wt ws wd : Bool) (t : BitVec 8) (a b : Word) :
    (s.ccRecord wt ws wd t a b).base = s.base := rfl
@[simp] theorem State.ccRecord_df (s : State) (wt ws wd : Bool) (t : BitVec 8) (a b : Word) :
    (s.ccRecord wt ws wd t a b).df = s.df := rfl
@[simp] theorem State.ccRecord_slots (s : State) (wt ws wd : Bool) (t : BitVec 8) (a b : Word) :
    (s.ccRecord wt ws wd t a b).slots = s.slots := rfl
@[simp] theorem State.ccRecord_top (s : State) (wt ws wd : Bool) (t : BitVec 8) (a b : Word) :
    (s.ccRecord wt ws wd t a b).top = s.top := rfl
@[simp] theorem State.ccRecord_ftag (s : State) (wt ws wd : Bool) (t : BitVec 8) (a b : Word) :
    (s.ccRecord wt ws wd t a b).ftag = s.ftag := rfl
@[simp] theorem State.ccRecord_irq (s : State) (wt ws wd : Bool) (t : BitVec 8) (a b : Word) :
    (s.ccRecord wt ws wd t a b).irq = s.irq := rfl
@[simp] theorem State.ccRecord_halted (s : State) (wt ws wd : Bool) (t : BitVec 8) (a b : Word) :
    (s.ccRecord wt ws wd t a b).halted = s.halted := rfl
@[simp] theorem State.ccRecord_feat (s : State) (wt ws wd : Bool) (t : BitVec 8) (a b : Word) :
    (s.ccRecord wt ws wd t a b).feat = s.feat := rfl
@[simp] theorem State.ccRecord_lma (s : State) (wt ws wd : Bool) (t : BitVec 8) (a b : Word) :
    (s.ccRecord wt ws wd t a b).lma = s.lma := rfl
@[simp] theorem State.ccRecord_svme (s : State) (wt ws wd : Bool) (t : BitVec 8) (a b : Word) :
    (s.ccRecord wt ws wd t a b).svme = s.svme := rfl
@[simp] theorem State.ccRecord_faultLog (s : State) (wt ws wd : Bool) (t : BitVec 8) (a b : Word) :
    (s.ccRecord wt ws wd t a b).faultLog = s.faultLog := rfl
@[simp] theorem State.ccRecord_mem (s : State) (wt ws wd : Bool) (t : BitVec 8) (a b : Word) :
    (s.ccRecord wt ws wd t a b).mem = s.mem := rfl
@[simp] theorem State.ccRecord_inputs (s : State) (wt ws wd : Bool) (t : BitVec 8) (a b : Word) :
    (s.ccRecord wt ws wd t a b).inputs = s.inputs := rfl
@[simp] theorem State.ccRecord_port (s : State) (wt ws wd : Bool) (t : BitVec 8) (a b : Word) :
    (s.ccRecord wt ws wd t a b).port = s.port := rfl
@[simp] theorem State.ccRecord_memPort (s : State) (wt ws wd : Bool) (t : BitVec 8) (a b : Word) :
    (s.ccRecord wt ws wd t a b).memPort = s.memPort := rfl
@[simp] theorem State.ccRecord_out (s : State) (wt ws wd : Bool) (t : BitVec 8) (a b : Word) :
    (s.ccRecord wt ws wd t a b).out = s.out := rfl
@[simp] theorem State.ccRecord_out80 (s : State) (wt ws wd : Bool) (t : BitVec 8) (a b : Word) :
    (s.ccRecord wt ws wd t a b).out80 = s.out80 := rfl
@[simp] theorem State.ccRecord_fault (s : State) (wt ws wd : Bool) (t : BitVec 8) (a b : Word) :
    (s.ccRecord wt ws wd t a b).fault = s.fault := rfl
@[simp] theorem State.ccRecord_draws (s : State) (wt ws wd : Bool) (t : BitVec 8) (a b : Word) :
    (s.ccRecord wt ws wd t a b).draws = s.draws := rfl

end Sys2Proof.Machine
end

