-- ==== Sys2Proof/Laws/Ops.lean ====
section
/-! SUPPORT. What each shared operation over registers and ports can do, said once. -/

namespace Sys2Proof.Machine

/-! ### Widths -/

theorem truncW_truncW (p : Params) (v : BitVec 64) : truncW p (truncW p v) = truncW p v := by
  unfold truncW
  cases p.w
  · ext i hi
    simp
  · rfl

/-- Truncation is reduction modulo 2^W (00_scope.md R12). -/
theorem truncW_toNat (p : Params) (v : BitVec 64) :
    (truncW p v).toNat = v.toNat % (match p.w with | .w32 => 2 ^ 32 | .w64 => 2 ^ 64) := by
  unfold truncW
  cases p.w
  · simp
    omega
  · simp
    omega

@[simp] theorem fitsW_truncW (p : Params) (v : BitVec 64) : fitsW p (truncW p v) = true := by
  simp [fitsW, truncW_truncW]

@[simp] theorem fitsW_zero (p : Params) : fitsW p 0#64 = true := by
  unfold fitsW truncW
  cases p.w <;> rfl

/-- A value of at most 32 bits is a W-bit value for both W. -/
theorem fitsW_of_32 (p : Params) (v : BitVec 32) : fitsW p (v.setWidth 64) = true := by
  unfold fitsW truncW
  cases p.w
  · simp
  · simp

/-! ### How a flag read and a boundary command end -/

/-- A flag read faults exactly when the restore contract is broken (41_condition_codes.md R142). -/
theorem flagRead_cases (s : State) (v : BitVec 32) :
    (s.contractBroken = true ∧ flagRead s v = .next (s.raise (.model .restoreContract)))
      ∨ (s.contractBroken = false ∧ flagRead s v = .next (s.driveOut (v.setWidth 64))) := by
  unfold flagRead
  cases h : s.contractBroken <;> simp

theorem onBoundary_present {s : State} (h : s.cfg.boundaryUnits = true) (r : Result) : onBoundary s r = r := by
  simp [onBoundary, h]

theorem onBoundary_absent {s : State} (h : s.cfg.boundaryUnits = false) (r : Result) :
    onBoundary s r = .next s.illegal := by
  simp [onBoundary, h]

/-! ### Registers and slots -/

@[simp] theorem State.gprGet_gprSet (s : State) (r : BitVec 4) (v : Word) : (s.gprSet r v).gprGet r = v := by
  simp [State.gprGet]

theorem State.gprGet_gprSet_ne (s : State) {r q : BitVec 4} (v : Word) (h : q ≠ r) :
    (s.gprSet r v).gprGet q = s.gprGet q := by
  have : r.toNat ≠ q.toNat := fun e => h (BitVec.eq_of_toNat_eq e.symm)
  simp [State.gprGet, Vector.getElem_set_ne _ _ this]

@[simp] theorem State.locGet_locSet (s : State) (r : BitVec 4) (v : Word) : (s.locSet r v).locGet r = v := by
  simp [State.locGet]

@[simp] theorem State.locValid_locSet (s : State) (r : BitVec 4) (v : Word) : (s.locSet r v).locValid r = true := by
  simp [State.locValid]

theorem State.locGet_locSet_ne (s : State) {r q : BitVec 4} (v : Word) (h : q ≠ r) :
    (s.locSet r v).locGet q = s.locGet q := by
  have : r.toNat ≠ q.toNat := fun e => h (BitVec.eq_of_toNat_eq e.symm)
  simp [State.locGet, Vector.getElem_set_ne _ _ this]

theorem State.locValid_locSet_ne (s : State) {r q : BitVec 4} (v : Word) (h : q ≠ r) :
    (s.locSet r v).locValid q = s.locValid q := by
  have : r.toNat ≠ q.toNat := fun e => h (BitVec.eq_of_toNat_eq e.symm)
  simp [State.locValid, Vector.getElem_set_ne _ _ this]

@[simp] theorem State.slotGet_slotSet (s : State) (k : BitVec 3) (v : Slot) : (s.slotSet k v).slotGet k = v := by
  simp [State.slotGet]

theorem State.slotGet_slotSet_ne (s : State) {k q : BitVec 3} (v : Slot) (h : q ≠ k) :
    (s.slotSet k v).slotGet q = s.slotGet q := by
  have : k.toNat ≠ q.toNat := fun e => h (BitVec.eq_of_toNat_eq e.symm)
  simp [State.slotGet, Vector.getElem_set_ne _ _ this]

/-! ### The mirror -/

/-- A mirror copy takes exactly the bound entries (40_register_file.md R105, R106). -/
theorem copyBound_get {α : Type} (p : Params) (new old : Vector α 16) (r : BitVec 4) :
    (copyBound p new old)[r.toNat]'r.isLt
      = if isBound p r then new[r.toNat]'r.isLt else old[r.toNat]'r.isLt := by
  simp [copyBound]

/-- The unwritten bound registers. -/
theorem State.mem_unwritten (s : State) (r : BitVec 4) :
    r ∈ s.unwritten ↔ isBound s.cfg r = true ∧ s.locValid r = false := by
  have h : r ∈ (List.range 16).map (BitVec.ofNat 4) :=
    List.mem_map.mpr ⟨r.toNat, List.mem_range.mpr r.isLt, by simp⟩
  simp only [State.unwritten, List.mem_filter]
  simp [h]

/-- The register UNWRITTEN_LOCAL names is one of the unwritten (40_register_file.md R106). -/
theorem pickUnwritten_mem (draw : Nat) (r : BitVec 4) (more : List (BitVec 4)) :
    pickUnwritten draw r more ∈ r :: more := by
  unfold pickUnwritten
  cases more with
  | nil => simp
  | cons q rest =>
    dsimp only
    rw [List.getD_eq_getElem?_getD]
    have hlt : Config.freeIndex draw % ((q :: rest).length + 1) < (r :: q :: rest).length :=
      Nat.mod_lt _ (Nat.succ_pos _)
    rw [List.getElem?_eq_getElem hlt]
    exact List.getElem_mem hlt

/-- What SYNC_OUT can do (40_register_file.md R106): copy, or name one bound register that is unwritten. -/
theorem execSyncOut_cases (s : State) :
    (s.unwritten = [] ∧ execSyncOut s = .next s.mirrorOut.done)
      ∨ ∃ r ∈ s.unwritten, execSyncOut s = .next (s.raise (.model (.unwrittenLocal r.toNat))) := by
  unfold execSyncOut
  cases h : s.unwritten with
  | nil => exact .inl ⟨rfl, rfl⟩
  | cons r more => exact .inr ⟨_, pickUnwritten_mem s.draws r more, rfl⟩

/-! ### The base word -/

/-- Every write of the base word keeps the invariant of 42_eflags.md R168. -/
theorem baseMerge_ok (base v m : BitVec 32) (h : base &&& ownedMask = 0) :
    (baseMerge base v m).getLsbD 1 = true ∧ baseMerge base v m &&& ownedMask = 0 := by
  constructor
  · simp [baseMerge]
  · have h2 : (2 : BitVec 32) &&& ownedMask = 0 := by decide
    unfold baseMerge
    rw [BitVec.and_or_distrib_right, BitVec.and_or_distrib_right, h2]
    have e1 : base &&& ~~~m &&& ownedMask = 0 := by
      rw [BitVec.and_assoc, BitVec.and_comm (~~~m), ← BitVec.and_assoc, h]
      simp
    have e2 : v &&& m &&& ~~~ownedMask &&& ownedMask = 0 := by
      rw [BitVec.and_assoc]
      simp [ownedMask, ccMask, dfMask]
    rw [e1, e2]
    rfl

end Sys2Proof.Machine
end

