-- ==== Sys2Proof/Laws/Flags.lean ====
section
/-! SUPPORT. The flag mask bit by bit, and the shape of the carry and overflow tests of 41_condition_codes.md. -/

namespace Sys2Proof.Machine

/-- One flag sets one bit. -/
theorem flagBit_getLsbD {k : Nat} (hk : k < 32) (f : Bool) (j : Nat) :
    (flagBit k f).getLsbD j = (f && decide (j = k)) := by
  simp only [flagBit, BitVec.getLsbD_shiftLeft, BitVec.getLsbD_setWidth, BitVec.getLsbD_ofBool]
  by_cases h : j = k
  · subst h
    simp [hk]
  · simp [h]
    omega

/-- Every bit of the flag mask (R120). -/
theorem flagMask_getLsbD (cf pf af zf sf of : Bool) (j : Nat) :
    (flagMask cf pf af zf sf of).getLsbD j
      = ((cf && decide (j = 0)) || (pf && decide (j = 2)) || (af && decide (j = 4)) || (zf && decide (j = 6))
        || (sf && decide (j = 7)) || (of && decide (j = 11))) := by
  simp only [flagMask, BitVec.getLsbD_or]
  rw [flagBit_getLsbD (by omega), flagBit_getLsbD (by omega), flagBit_getLsbD (by omega), flagBit_getLsbD (by omega),
    flagBit_getLsbD (by omega), flagBit_getLsbD (by omega)]

/-- A flag mask has no bit outside CC_MASK (R120; 10_state.md R29). -/
theorem flagMask_within (cf pf af zf sf of : Bool) : flagMask cf pf af zf sf of &&& ~~~ccMask = 0 := by
  revert cf pf af zf sf of
  decide

/-- Every materialized mask is within CC_MASK (R120). -/
theorem materialize_within (p : Params) (op : TagOp) (src dst : Word) : materialize p op src dst &&& ~~~ccMask = 0 := by
  cases op with
  | dynamic => simp [materialize]
  | direct =>
    simp only [materialize]
    rw [BitVec.and_assoc]
    simp
  | arith f k =>
    unfold materialize
    dsimp only
    split
    · simp
    · cases f <;> exact flagMask_within _ _ _ _ _ _

theorem ccAll_within (p : Params) (tag : BitVec 8) (src dst : Word) : ccAll p tag src dst &&& ~~~ccMask = 0 := by
  unfold ccAll
  split
  · exact materialize_within _ _ _ _
  · simp

/-- The sum's overflow test (R127, R128): both operands of one sign and the result of the other. -/
theorem sumOverflow_eq {n : Nat} (x y r : BitVec n) (hn : 0 < n) :
    ((y ^^^ x ^^^ BitVec.allOnes n) &&& (y ^^^ r)).msb = ((x.msb == y.msb) && (r.msb != y.msb)) := by
  simp [BitVec.msb_and, BitVec.msb_xor, hn]
  cases x.msb <;> cases y.msb <;> cases r.msb <;> simp

/-- The difference's overflow test (R129, R130): operands of different signs and the result not of the minuend's. -/
theorem differenceOverflow_eq {n : Nat} (x y r : BitVec n) :
    ((x ^^^ y) &&& (x ^^^ r)).msb = ((x.msb != y.msb) && (r.msb != x.msb)) := by
  simp [BitVec.msb_and, BitVec.msb_xor]
  cases x.msb <;> cases y.msb <;> cases r.msb <;> simp

/-- The carry out of the low nibble of a sum (R127). -/
theorem sumAdjust_eq {n : Nat} (x y : BitVec n) (hn : 8 ≤ n) :
    ((x + y) ^^^ y ^^^ x).getLsbD 4 = decide (16 ≤ x.toNat % 16 + y.toNat % 16) := by
  simp only [BitVec.getLsbD_xor, BitVec.getLsbD_add (show 4 < n by omega), BitVec.carry]
  cases x.getLsbD 4 <;> cases y.getLsbD 4 <;> simp

/-- The carry out of the low nibble of a sum with carry-in 1 (R128). -/
theorem sumOneAdjust_eq {n : Nat} (x y : BitVec n) (hn : 8 ≤ n) :
    ((x + y + 1) ^^^ y ^^^ x).getLsbD 4 = decide (16 ≤ x.toNat % 16 + y.toNat % 16 + 1) := by
  have h := BitVec.getLsbD_add_add_bool (i := 4) (show 4 < n by omega) x y true
  have e : x + y + (BitVec.ofBool true).setWidth n = x + y + 1 := by
    congr 1
    apply BitVec.eq_of_toNat_eq
    simp
  rw [e] at h
  simp only [BitVec.getLsbD_xor, h, BitVec.carry]
  cases x.getLsbD 4 <;> cases y.getLsbD 4 <;> simp

theorem opBits_bounds (k : OpWidth) : 8 ≤ opBits k ∧ opBits k ≤ 64 := by cases k <;> decide

end Sys2Proof.Machine
end

