-- ==== Sys2Proof/Laws/Memory.lean ====
section
/-! SUPPORT. The laws of guest memory: a read after a write, and that every memory operation keeps the canonical form and the
address space. -/

namespace Sys2Proof.Machine

/-! ### The canonical form -/

/-- A lower bound on the addresses may be lowered. -/
theorem Memory.wfFrom_weaken {m : Memory} {l : Nat} {lo : Option Nat} (hlo : ∀ x, lo = some x → x ≤ l)
    (h : Memory.wfFrom (some l) m = true) : Memory.wfFrom lo m = true := by
  cases m with
  | nil => rfl
  | cons e rest =>
    simp only [Memory.wfFrom, Bool.and_eq_true, decide_eq_true_eq] at h ⊢
    refine ⟨⟨?_, h.1.2⟩, h.2⟩
    cases lo with
    | none => rfl
    | some x => simpa [above] using Nat.lt_of_le_of_lt (hlo x rfl) (by simpa [above] using h.1.1)

/-- An address at or below the lower bound is not listed. -/
theorem Memory.read_below {m : Memory} {l a : Nat} (h : Memory.wfFrom (some l) m = true) (ha : a ≤ l) :
    Memory.read m a = unlisted := by
  induction m generalizing l with
  | nil => rfl
  | cons e rest ih =>
    simp only [Memory.wfFrom, Bool.and_eq_true, decide_eq_true_eq] at h
    have hk : a < e.1 := Nat.lt_of_le_of_lt ha (by simpa [above] using h.1.1)
    rw [Memory.read, if_neg (Nat.ne_of_lt hk)]
    exact ih h.2 (Nat.le_of_lt hk)

/-- A write keeps the canonical form. -/
theorem Memory.wfFrom_write {m : Memory} {lo : Option Nat} (a : Nat) (b : Byte) (hlo : ∀ x, lo = some x → x < a)
    (h : Memory.wfFrom lo m = true) : Memory.wfFrom lo (Memory.write m a b) = true := by
  have head : above lo a = true := by
    cases lo with
    | none => rfl
    | some x => simpa [above] using hlo x rfl
  induction m generalizing lo with
  | nil =>
    unfold Memory.write
    split
    · exact h
    · simp [Memory.wfFrom, *]
  | cons e rest ih =>
    have h' := h
    simp only [Memory.wfFrom, Bool.and_eq_true, decide_eq_true_eq] at h
    unfold Memory.write
    split
    · split
      · exact h'
      · simp only [Memory.wfFrom, Bool.and_eq_true, decide_eq_true_eq]
        exact ⟨⟨head, ‹_›⟩, ⟨by simpa [above] using ‹a < e.1›, h.1.2⟩, h.2⟩
    · split
      · split
        · refine Memory.wfFrom_weaken (fun x hx => ?_) h.2
          have := hlo x hx
          omega
        · rename_i hak hb
          simp only [Memory.wfFrom, Bool.and_eq_true, decide_eq_true_eq]
          exact ⟨⟨head, hb⟩, by rw [hak]; exact h.2⟩
      · simp only [Memory.wfFrom, Bool.and_eq_true, decide_eq_true_eq]
        have hlt : e.1 < a := by omega
        refine ⟨h.1, ih (lo := some e.1) (fun x hx => ?_) h.2 (by simpa [above] using hlt)⟩
        cases hx
        exact hlt

theorem Memory.wf_write {m : Memory} (a : Nat) (b : Byte) (h : Memory.wf m = true) :
    Memory.wf (Memory.write m a b) = true :=
  Memory.wfFrom_write a b (by simp) h

/-! ### Reading after writing -/

theorem Memory.read_write_same {m : Memory} {lo : Option Nat} (a : Nat) (b : Byte) (h : Memory.wfFrom lo m = true) :
    Memory.read (Memory.write m a b) a = b := by
  induction m generalizing lo with
  | nil =>
    unfold Memory.write
    split
    · simp [Memory.read, *]
    · simp [Memory.read]
  | cons e rest ih =>
    simp only [Memory.wfFrom, Bool.and_eq_true, decide_eq_true_eq] at h
    unfold Memory.write
    split
    · rename_i hlt
      split
      · rename_i hb
        rw [Memory.read, if_neg (Nat.ne_of_lt hlt), hb]
        exact Memory.read_below h.2 (Nat.le_of_lt hlt)
      · simp [Memory.read]
    · split
      · rename_i hak
        split
        · rename_i hb
          rw [hb, hak]
          exact Memory.read_below h.2 (Nat.le_refl _)
        · simp [Memory.read]
      · rename_i hak
        rw [Memory.read, if_neg hak]
        exact ih h.2

/-- A write changes no other byte, whether or not the memory is in canonical form. -/
theorem Memory.read_write_other {m : Memory} {a q : Nat} (b : Byte) (hq : q ≠ a) :
    Memory.read (Memory.write m a b) q = Memory.read m q := by
  induction m with
  | nil =>
    unfold Memory.write
    split
    · rfl
    · simp [Memory.read, hq]
  | cons e rest ih =>
    unfold Memory.write
    split
    · split
      · rfl
      · simp [Memory.read, hq]
    · split
      · rename_i hak
        have hqk : q ≠ e.1 := hak ▸ hq
        split
        · simp [Memory.read, hqk]
        · simp [Memory.read, hq, hqk]
      · simp only [Memory.read]
        split
        · rfl
        · exact ih

/-! ### The address space -/

/-- An entry of the memory after a write is the byte written or was there before. -/
theorem Memory.mem_write {m : Memory} {a : Nat} {b : Byte} {e : Host.Cell} (h : e ∈ Memory.write m a b) :
    e = (a, b) ∨ e ∈ m := by
  induction m with
  | nil =>
    unfold Memory.write at h
    split at h
    · exact .inr h
    · exact .inl (by simpa using h)
  | cons c rest ih =>
    unfold Memory.write at h
    split at h
    · split at h
      · exact .inr h
      · exact (List.mem_cons.mp h).imp id id
    · split at h
      · split at h
        · exact .inr (List.mem_cons_of_mem _ h)
        · exact (List.mem_cons.mp h).imp id (List.mem_cons_of_mem _)
      · rcases List.mem_cons.mp h with rfl | h
        · exact .inr List.mem_cons_self
        · exact (ih h).imp id (List.mem_cons_of_mem _)

theorem Memory.addrsFit_write {p : Params} {m : Memory} {a : Nat} (b : Byte) (ha : a < 2 ^ 64)
    (hf : fitsW p (BitVec.ofNat 64 a) = true) (h : addrsFit p m = true) : addrsFit p (Memory.write m a b) = true := by
  simp only [addrsFit, List.all_eq_true, Bool.and_eq_true, decide_eq_true_eq] at h ⊢
  intro e he
  rcases Memory.mem_write he with rfl | hm
  · exact ⟨ha, hf⟩
  · exact h e hm

/-- Guest memory in canonical form, within the address space. -/
def Memory.ok (p : Params) (m : Memory) : Prop := Memory.wf m = true ∧ addrsFit p m = true

theorem Memory.ok_write {p : Params} {m : Memory} (v : Word) (b : Byte) (h : Memory.ok p m) :
    Memory.ok p (Memory.write m (truncW p v).toNat b) :=
  ⟨Memory.wf_write _ _ h.1, Memory.addrsFit_write _ (truncW p v).isLt (by simp) h.2⟩

theorem disturb_ok {p : Params} (d : List (Nat × Host.Cell)) (j : Nat) {m : Memory} (h : Memory.ok p m) :
    Memory.ok p (disturb p d j m) := by
  induction d generalizing m with
  | nil => exact h
  | cons e rest ih =>
    unfold disturb
    refine ih ?_
    split
    · exact Memory.ok_write _ _ h
    · exact h

theorem readBytes_ok {p : Params} (d : List (Nat × Host.Cell)) (a : Word) (n : Nat) {m : Memory} (h : Memory.ok p m) :
    Memory.ok p (readBytes p d a n m).1 := by
  induction n with
  | zero => exact h
  | succ j ih => exact disturb_ok d j ih

theorem writeBytes_ok {p : Params} (d : List (Nat × Host.Cell)) (landed : BitVec 8) (a : Word) (v : BitVec 64) (n : Nat)
    {m : Memory} (h : Memory.ok p m) : Memory.ok p (writeBytes p d landed a v n m) := by
  induction n with
  | zero => exact h
  | succ j ih =>
    unfold writeBytes
    dsimp only
    split
    · exact Memory.ok_write _ _ (disturb_ok d j ih)
    · exact disturb_ok d j ih

/-! ### The two requests -/

/-- What MemRead can change: guest memory (through other agents alone) and the memory port. -/
theorem State.memRead_fst (s : State) (ans : Answer) (a : Word) (n : Nat) :
    (s.memRead ans a n).1
      = { s with mem := (readBytes s.cfg ans.disturbance a n s.mem).1, memPort := s.memPort ++ [.read a n] } := rfl

/-- What MemWrite can change: guest memory and the memory port. -/
theorem State.memWrite_fst (s : State) (ans : Answer) (a : Word) (n : Nat) (v : BitVec 64) :
    (s.memWrite ans a n v).1
      = { s with
          mem := writeBytes s.cfg ans.disturbance (ans.failure.getD (BitVec.allOnes 8)) a v n s.mem
          memPort := s.memPort ++ [.write a n v] } := rfl

/-- A MemRead fails exactly when the collaborator says so. -/
theorem State.memRead_snd (s : State) (ans : Answer) (a : Word) (n : Nat) :
    (s.memRead ans a n).2 = if ans.failure = none then some (readBytes s.cfg ans.disturbance a n s.mem).2 else none := by
  cases h : ans.failure <;> simp [State.memRead, h]

/-- A read that nothing disturbs leaves memory alone. -/
theorem readBytes_plain_fst (p : Params) (a : Word) (n : Nat) (m : Memory) : (readBytes p [] a n m).1 = m := by
  induction n with
  | zero => rfl
  | succ j ih => simpa [readBytes, disturb] using ih

/-! ### What a transfer leaves in each byte -/

/-- `byteAddr` is addition modulo 2^W. -/
theorem byteAddr_eq (p : Params) (a : Word) (j : Nat) :
    byteAddr p a j = (a.toNat + j) % (match p.w with | .w32 => 2 ^ 32 | .w64 => 2 ^ 64) := by
  unfold byteAddr truncW
  cases p.w
  · simp
    omega
  · simp

/-- The bytes of one access lie at different addresses. -/
theorem byteAddr_inj {p : Params} {a : Word} {j k : Nat} (hj : j < 16) (hk : k < 16)
    (h : byteAddr p a j = byteAddr p a k) : j = k := by
  rw [byteAddr_eq, byteAddr_eq] at h
  cases hw : p.w <;> simp only [hw] at h <;> omega

/-- Undisturbed memory is as it was. -/
@[simp] theorem disturb_nil (p : Params) (j : Nat) (m : Memory) : disturb p [] j m = m := rfl

/-- No entry of the disturbance writes the address. -/
def spares (p : Params) (d : List (Nat × Host.Cell)) (q : Nat) : Prop :=
  ∀ e ∈ d, q ≠ (truncW p (BitVec.ofNat 64 e.2.1)).toNat

@[simp] theorem spares_nil (p : Params) (q : Nat) : spares p [] q := by simp [spares]

theorem disturb_wf {p : Params} (d : List (Nat × Host.Cell)) (j : Nat) {m : Memory} (h : Memory.wf m = true) :
    Memory.wf (disturb p d j m) = true := by
  induction d generalizing m with
  | nil => exact h
  | cons e rest ih =>
    unfold disturb
    refine ih ?_
    split
    · exact Memory.wf_write _ _ h
    · exact h

/-- A disturbance changes only the addresses it writes. -/
theorem disturb_other {p : Params} {d : List (Nat × Host.Cell)} (j : Nat) (m : Memory) {q : Nat} (hq : spares p d q) :
    Memory.read (disturb p d j m) q = Memory.read m q := by
  induction d generalizing m with
  | nil => rfl
  | cons e rest ih =>
    unfold disturb
    refine (ih _ fun x hx => hq x (List.mem_cons_of_mem _ hx)).trans ?_
    split
    · exact Memory.read_write_other _ (hq e List.mem_cons_self)
    · rfl

theorem readBytes_wf {p : Params} (d : List (Nat × Host.Cell)) (a : Word) (n : Nat) {m : Memory}
    (h : Memory.wf m = true) : Memory.wf (readBytes p d a n m).1 = true := by
  induction n with
  | zero => exact h
  | succ j ih => exact disturb_wf d j ih

/-- A read changes only what other agents write meanwhile. -/
theorem readBytes_other {p : Params} {d : List (Nat × Host.Cell)} (a : Word) (n : Nat) (m : Memory) {q : Nat}
    (hq : spares p d q) : Memory.read (readBytes p d a n m).1 q = Memory.read m q := by
  induction n with
  | zero => rfl
  | succ j ih => exact (disturb_other j _ hq).trans ih

theorem writeBytes_wf {p : Params} (d : List (Nat × Host.Cell)) (landed : BitVec 8) (a : Word) (v : BitVec 64) (n : Nat)
    {m : Memory} (h : Memory.wf m = true) : Memory.wf (writeBytes p d landed a v n m) = true := by
  induction n with
  | zero => exact h
  | succ j ih =>
    unfold writeBytes
    dsimp only
    split
    · exact Memory.wf_write _ _ (disturb_wf d j ih)
    · exact disturb_wf d j ih

/-- A write changes only its own bytes and what other agents write meanwhile. -/
theorem writeBytes_other {p : Params} {d : List (Nat × Host.Cell)} (landed : BitVec 8) (a : Word) (v : BitVec 64)
    (n : Nat) (m : Memory) {q : Nat} (hq : spares p d q) (ha : ∀ j, j < n → q ≠ byteAddr p a j) :
    Memory.read (writeBytes p d landed a v n m) q = Memory.read m q := by
  induction n with
  | zero => rfl
  | succ j ih =>
    have hi := (disturb_other j _ hq).trans (ih fun k hk => ha k (Nat.lt_succ_of_lt hk))
    unfold writeBytes
    dsimp only
    split
    · exact (Memory.read_write_other _ (ha j (Nat.lt_succ_self j))).trans hi
    · exact hi

/-- Each byte of a write that other agents spare is new where it landed, else old. -/
theorem writeBytes_at {p : Params} {d : List (Nat × Host.Cell)} (landed : BitVec 8) (a : Word) (v : BitVec 64) {n j : Nat}
    (hn : n ≤ 8) (hj : j < n) {m : Memory} (hq : spares p d (byteAddr p a j)) (h : Memory.wf m = true) :
    Memory.read (writeBytes p d landed a v n m) (byteAddr p a j)
      = if landed.getLsbD j then v.extractLsb' (8 * j) 8 else Memory.read m (byteAddr p a j) := by
  induction n with
  | zero => omega
  | succ k ih =>
    unfold writeBytes
    dsimp only
    by_cases hjk : j = k
    · subst hjk
      split
      · exact Memory.read_write_same _ _ (disturb_wf d j (writeBytes_wf d landed a v j h))
      · exact (disturb_other j _ hq).trans (writeBytes_other landed a v j m hq fun i hi e => by
          have := byteAddr_inj (by omega) (by omega) e
          omega)
    · have hne : byteAddr p a j ≠ byteAddr p a k := fun e => hjk (byteAddr_inj (by omega) (by omega) e)
      have hi := (disturb_other k _ hq).trans (ih (by omega) (by omega))
      split
      · exact (Memory.read_write_other _ hne).trans hi
      · exact hi

/-- Each bit of a read, where other agents spare its byte, is the bit in memory; no bit beyond the bytes read is set. -/
theorem readBytes_bit {p : Params} {d : List (Nat × Host.Cell)} (a : Word) (n : Nat) (m : Memory) (i : Nat) (hi : i < 64)
    (hq : spares p d (byteAddr p a (i / 8))) :
    (readBytes p d a n m).2.getLsbD i
      = (decide (i < 8 * n) && (Memory.read m (byteAddr p a (i / 8))).getLsbD (i % 8)) := by
  induction n with
  | zero => simp [readBytes]
  | succ k ih =>
    simp only [readBytes, BitVec.getLsbD_or, ih, BitVec.getLsbD_shiftLeft, BitVec.getLsbD_setWidth]
    by_cases h1 : i < 8 * k
    · simp [h1, show i < 8 * (k + 1) by omega]
    · by_cases h2 : i < 8 * (k + 1)
      · have e1 : i / 8 = k := by omega
        have e2 : i - 8 * k = i % 8 := by omega
        rw [e1] at hq ⊢
        rw [e2, disturb_other k _ hq, readBytes_other a k m hq]
        simp [h1, h2, hi]
        intro _
        omega
      · have h3 : 8 ≤ i - 8 * k := by omega
        simp [h1, h2, BitVec.getLsbD_of_ge _ _ h3]

/-- Each byte of a read that other agents spare is the byte in memory. -/
theorem readBytes_byte {p : Params} {d : List (Nat × Host.Cell)} (a : Word) {n j : Nat} (hn : n ≤ 8) (hj : j < n)
    (m : Memory) (hq : spares p d (byteAddr p a j)) :
    (readBytes p d a n m).2.extractLsb' (8 * j) 8 = Memory.read m (byteAddr p a j) := by
  ext i hi
  have e1 : (8 * j + i) / 8 = j := by omega
  have e2 : (8 * j + i) % 8 = i := by omega
  rw [BitVec.getElem_extractLsb', readBytes_bit a n m _ (by omega) (by rw [e1]; exact hq), e1, e2]
  simp [show 8 * j + i < 8 * n by omega, BitVec.getLsbD_eq_getElem hi]

end Sys2Proof.Machine
end

