-- ==== Sys2Proof/Laws/Fpu.lean ====
section
/-! SUPPORT. What an 80-bit transfer can do, said once: it ends at its first failing access, else it completes. -/

namespace Sys2Proof.Machine

/-! ### The bytes of an 80-bit pattern and where they lie (20_memory.md R54, R56) -/

/-- Byte j of the second access is byte 8 + j of the transfer. -/
theorem byteAddr_secondAddr (s : State) (j : Nat) :
    byteAddr s.cfg (secondAddr s) j = byteAddr s.cfg (portAddr s) (8 + j) := by
  rw [byteAddr_eq, byteAddr_eq, secondAddr, truncW_toNat]
  cases s.cfg.w
  · simp
    omega
  · simp
    omega

/-- A low byte of a loaded pattern comes from the first access. -/
theorem loaded_low_byte (hi lo : BitVec 64) {j : Nat} (h : j < 8) :
    (hi.setWidth 16 ++ lo : Slot).extractLsb' (8 * j) 8 = lo.extractLsb' (8 * j) 8 := by
  ext i h1
  rw [BitVec.getElem_extractLsb', BitVec.getElem_extractLsb', BitVec.getLsbD_append]
  simp [show 8 * j + i < 64 by omega]

/-- A high byte of a loaded pattern comes from the second access. -/
theorem loaded_high_byte (hi lo : BitVec 64) {j : Nat} (h : j < 2) :
    (hi.setWidth 16 ++ lo : Slot).extractLsb' (8 * (8 + j)) 8 = hi.extractLsb' (8 * j) 8 := by
  ext i h1
  rw [BitVec.getElem_extractLsb', BitVec.getElem_extractLsb', BitVec.getLsbD_append, if_neg (by omega),
    show 8 * (8 + j) + i - 64 = 8 * j + i by omega, BitVec.getLsbD_setWidth]
  simp [show 8 * j + i < 16 by omega]

/-- A byte of the first access's value is a low byte of the stored pattern. -/
theorem stored_low_byte (v : Slot) {j : Nat} (h : j < 8) :
    (v.extractLsb' 0 64).extractLsb' (8 * j) 8 = v.extractLsb' (8 * j) 8 := by
  ext i h1
  simp
  omega

/-- A byte of the second access's value is a high byte of the stored pattern. -/
theorem stored_high_byte (v : Slot) {j : Nat} (h : j < 2) :
    ((v.extractLsb' 64 16).setWidth 64).extractLsb' (8 * j) 8 = v.extractLsb' (8 * (8 + j)) 8 := by
  ext i h1
  simp only [BitVec.getElem_extractLsb', BitVec.getLsbD_setWidth, BitVec.getLsbD_extractLsb']
  simp [show 8 * j + i < 64 by omega, show 8 * j + i < 16 by omega, show 64 + (8 * j + i) = 8 * (8 + j) + i by omega]

/-! ### The two commands -/

/-- FPU_LD80 (43_fpu_stack.md R196; 20_memory.md R57). -/
theorem execFpuLd80_cases (s : State) :
    let m1 := readBytes s.cfg s.port.first.disturbance (portAddr s) 8 s.mem
    let m2 := readBytes s.cfg s.port.second.disturbance (secondAddr s) 2 m1.1
    let s1 := { s with mem := m1.1, memPort := s.memPort ++ [Request.read (portAddr s) 8] }
    let s2 := { s with mem := m2.1, memPort := s.memPort ++ [Request.read (portAddr s) 8] ++ [Request.read (secondAddr s) 2] }
    (s.port.first.failure ≠ none ∧ execFpuLd80 s = .next (s1.raise (.memFault (portAddr s) 8 .read)))
      ∨ (s.port.first.failure = none ∧ s.port.second.failure ≠ none
        ∧ execFpuLd80 s = .next (s2.raise (.memFault (secondAddr s) 2 .read)))
      ∨ (s.port.first.failure = none ∧ s.port.second.failure = none
        ∧ execFpuLd80 s = .next (s2.driveOut80 (m2.2.setWidth 16 ++ m1.2))) := by
  unfold execFpuLd80 State.memRead
  cases hf : s.port.first.failure with
  | some l => exact .inl ⟨by simp, rfl⟩
  | none =>
    cases hs : s.port.second.failure with
    | some l => exact .inr (.inl ⟨rfl, by simp, rfl⟩)
    | none => exact .inr (.inr ⟨rfl, rfl, rfl⟩)

/-- FPU_ST80 (43_fpu_stack.md R197, R201; 20_memory.md R57). -/
theorem execFpuSt80_cases (s : State) :
    let lo := s.port.v.extractLsb' 0 64
    let hi := (s.port.v.extractLsb' 64 16).setWidth 64
    let all := BitVec.allOnes 8
    let first := fun landed => writeBytes s.cfg s.port.first.disturbance landed (portAddr s) lo 8 s.mem
    let second := fun landed => writeBytes s.cfg s.port.second.disturbance landed (secondAddr s) hi 2 (first all)
    let one := s.memPort ++ [Request.write (portAddr s) 8 lo]
    let two := one ++ [Request.write (secondAddr s) 2 hi]
    (∃ landed, s.port.first.failure = some landed
        ∧ execFpuSt80 s
          = .next (State.raise { s with mem := first landed, memPort := one } (.memFault (portAddr s) 8 .write)))
      ∨ (∃ landed, s.port.first.failure = none ∧ s.port.second.failure = some landed
        ∧ execFpuSt80 s
          = .next (State.raise { s with mem := second landed, memPort := two } (.memFault (secondAddr s) 2 .write)))
      ∨ (s.port.first.failure = none ∧ s.port.second.failure = none
        ∧ execFpuSt80 s = .next (State.done { s with mem := second all, memPort := two })) := by
  unfold execFpuSt80 State.memWrite
  cases hf : s.port.first.failure with
  | some l => exact .inl ⟨l, rfl, rfl⟩
  | none =>
    cases hs : s.port.second.failure with
    | some l => exact .inr (.inl ⟨l, rfl, rfl, rfl⟩)
    | none => exact .inr (.inr ⟨rfl, rfl, rfl⟩)

end Sys2Proof.Machine
end

