-- ==== Sys2Proof/Laws/PerInstr.lean ====
section
/-! SUPPORT. Per instruction: its encoding agrees with its row of opcode_table.json (the row's match under the row's mask, and
the width of its encoding space). The rows are copied from the table, not from the encoder. -/

namespace Sys2Proof.Laws.TableRow

/-- The match and the mask of the instruction's row of opcode_table.json. -/
def row (i : Instr) : BitVec 32 × BitVec 32 :=
  match i with
  | .nop => (0x00000000, 0xFFFFFFFF)
  | .gprRd _ => (0x04000000, 0xFC3FFFFF)
  | .gprWr _ => (0x08000000, 0xFC3FFFFF)
  | .locRd _ => (0x0C000000, 0xFC3FFFFF)
  | .locWr _ => (0x10000000, 0xFC3FFFFF)
  | .syncIn => (0x14000000, 0xFFFFFFFF)
  | .syncOut => (0x18000000, 0xFFFFFFFF)
  | .ipRd => (0x1C000000, 0xFFFFFFFF)
  | .ipWr => (0x20000000, 0xFFFFFFFF)
  | .ccWr _ _ _ _ => (0x40000000, 0xFFF8FF00)
  | .ccRdRaw _ => (0x44000000, 0xFFFCFFFF)
  | .ccFlags => (0x48000000, 0xFFFFFFFF)
  | .ccCarry => (0x4C000000, 0xFFFFFFFF)
  | .eflPack => (0x60000000, 0xFFFFFFFF)
  | .eflRestore => (0x64000000, 0xFFFFFFFF)
  | .eflRestoreD => (0x68000000, 0xFFFFFFFF)
  | .eflBaseRd => (0x6C000000, 0xFFFFFFFF)
  | .eflBaseWr => (0x70000000, 0xFFFFFFFF)
  | .dfRd => (0x74000000, 0xFFFFFFFF)
  | .dfWr _ => (0x78000000, 0xFFFFFFFE)
  | .fpuPush => (0x80000000, 0xFFFFFFFF)
  | .fpuPop => (0x84000000, 0xFFFFFFFF)
  | .fpuRd _ => (0x88000000, 0xFFC7FFFF)
  | .fpuWr _ => (0x8C000000, 0xFFC7FFFF)
  | .fpuStRd => (0x90000000, 0xFFFFFFFF)
  | .fpuStWr => (0x94000000, 0xFFFFFFFF)
  | .fpuLd80 => (0x98000000, 0xFFFFFFFF)
  | .fpuSt80 => (0x9C000000, 0xFFFFFFFF)
  | .featLd => (0xC0000000, 0xFFFFFFFF)
  | .featRd _ => (0xC4000000, 0xFFFCFFFF)
  | .hasWork => (0xC8000000, 0xFFFFFFFF)
  | .chkHalt => (0xCC000000, 0xFFFFFFFF)
  | .irqOr => (0xD0000000, 0xFFFFFFFF)
  | .irqClr => (0xD4000000, 0xFFFFFFFF)
  | .irqRd => (0xD8000000, 0xFFFFFFFF)
  | .haltSet => (0xDC000000, 0xFFFFFFFF)
  | .ccDirect => (0x40040001, 0xFFFFFFFF)
  | .cld => (0x78000000, 0xFFFFFFFF)
  | .std => (0x78000001, 0xFFFFFFFF)
  | .fpuResetState => (0x94000000, 0xFFFFFFFF)
  | .tagDynamic => (0x00, 0xFF)
  | .tagDirect => (0x01, 0xFF)
  | .tagMulb => (0x02, 0xFF)
  | .tagMulw => (0x03, 0xFF)
  | .tagMull => (0x04, 0xFF)
  | .tagMulq => (0x05, 0xFF)
  | .tagAddb => (0x06, 0xFF)
  | .tagAddw => (0x07, 0xFF)
  | .tagAddl => (0x08, 0xFF)
  | .tagAddq => (0x09, 0xFF)
  | .tagAdcb => (0x0A, 0xFF)
  | .tagAdcw => (0x0B, 0xFF)
  | .tagAdcl => (0x0C, 0xFF)
  | .tagAdcq => (0x0D, 0xFF)
  | .tagSubb => (0x0E, 0xFF)
  | .tagSubw => (0x0F, 0xFF)
  | .tagSubl => (0x10, 0xFF)
  | .tagSubq => (0x11, 0xFF)
  | .tagSbbb => (0x12, 0xFF)
  | .tagSbbw => (0x13, 0xFF)
  | .tagSbbl => (0x14, 0xFF)
  | .tagSbbq => (0x15, 0xFF)
  | .tagLogicb => (0x16, 0xFF)
  | .tagLogicw => (0x17, 0xFF)
  | .tagLogicl => (0x18, 0xFF)
  | .tagLogicq => (0x19, 0xFF)
  | .tagIncb => (0x1A, 0xFF)
  | .tagIncw => (0x1B, 0xFF)
  | .tagIncl => (0x1C, 0xFF)
  | .tagIncq => (0x1D, 0xFF)
  | .tagDecb => (0x1E, 0xFF)
  | .tagDecw => (0x1F, 0xFF)
  | .tagDecl => (0x20, 0xFF)
  | .tagDecq => (0x21, 0xFF)
  | .tagShlb => (0x22, 0xFF)
  | .tagShlw => (0x23, 0xFF)
  | .tagShll => (0x24, 0xFF)
  | .tagShlq => (0x25, 0xFF)
  | .tagSarb => (0x26, 0xFF)
  | .tagSarw => (0x27, 0xFF)
  | .tagSarl => (0x28, 0xFF)
  | .tagSarq => (0x29, 0xFF)

/-- Whether the encoding of `i`, under its row's mask, is its row's match. -/
def agrees (i : Instr) : Bool :=
  match encode i with
  | .command w => decide (w &&& (row i).2 = (row i).1)
  | .tag t => decide (t.setWidth 32 &&& (row i).2 = (row i).1)

/-- The encoding of `i` agrees with its row of the table. -/
abbrev Statement (i : Instr) : Prop := agrees i = true

theorem nop : Statement .nop := by decide
theorem gprRd (r : BitVec 4) : Statement (.gprRd r) := by revert r; decide
theorem gprWr (r : BitVec 4) : Statement (.gprWr r) := by revert r; decide
theorem locRd (r : BitVec 4) : Statement (.locRd r) := by revert r; decide
theorem locWr (r : BitVec 4) : Statement (.locWr r) := by revert r; decide
theorem syncIn : Statement .syncIn := by decide
theorem syncOut : Statement .syncOut := by decide
theorem ipRd : Statement .ipRd := by decide
theorem ipWr : Statement .ipWr := by decide
theorem ccWr (wt ws wd : Bool) (t : BitVec 8) : Statement (.ccWr wt ws wd t) := by
  cases wt <;> cases ws <;> cases wd <;> revert t <;> decide
theorem ccRdRaw (sel : BitVec 2) : Statement (.ccRdRaw sel) := by revert sel; decide
theorem ccFlags : Statement .ccFlags := by decide
theorem ccCarry : Statement .ccCarry := by decide
theorem eflPack : Statement .eflPack := by decide
theorem eflRestore : Statement .eflRestore := by decide
theorem eflRestoreD : Statement .eflRestoreD := by decide
theorem eflBaseRd : Statement .eflBaseRd := by decide
theorem eflBaseWr : Statement .eflBaseWr := by decide
theorem dfRd : Statement .dfRd := by decide
theorem dfWr (d : Bool) : Statement (.dfWr d) := by cases d <;> decide
theorem fpuPush : Statement .fpuPush := by decide
theorem fpuPop : Statement .fpuPop := by decide
theorem fpuRd (i : BitVec 3) : Statement (.fpuRd i) := by revert i; decide
theorem fpuWr (i : BitVec 3) : Statement (.fpuWr i) := by revert i; decide
theorem fpuStRd : Statement .fpuStRd := by decide
theorem fpuStWr : Statement .fpuStWr := by decide
theorem fpuLd80 : Statement .fpuLd80 := by decide
theorem fpuSt80 : Statement .fpuSt80 := by decide
theorem featLd : Statement .featLd := by decide
theorem featRd (sel : BitVec 2) : Statement (.featRd sel) := by revert sel; decide
theorem hasWork : Statement .hasWork := by decide
theorem chkHalt : Statement .chkHalt := by decide
theorem irqOr : Statement .irqOr := by decide
theorem irqClr : Statement .irqClr := by decide
theorem irqRd : Statement .irqRd := by decide
theorem haltSet : Statement .haltSet := by decide
theorem ccDirect : Statement .ccDirect := by decide
theorem cld : Statement .cld := by decide
theorem std : Statement .std := by decide
theorem fpuResetState : Statement .fpuResetState := by decide
theorem tagDynamic : Statement .tagDynamic := by decide
theorem tagDirect : Statement .tagDirect := by decide
theorem tagMulb : Statement .tagMulb := by decide
theorem tagMulw : Statement .tagMulw := by decide
theorem tagMull : Statement .tagMull := by decide
theorem tagMulq : Statement .tagMulq := by decide
theorem tagAddb : Statement .tagAddb := by decide
theorem tagAddw : Statement .tagAddw := by decide
theorem tagAddl : Statement .tagAddl := by decide
theorem tagAddq : Statement .tagAddq := by decide
theorem tagAdcb : Statement .tagAdcb := by decide
theorem tagAdcw : Statement .tagAdcw := by decide
theorem tagAdcl : Statement .tagAdcl := by decide
theorem tagAdcq : Statement .tagAdcq := by decide
theorem tagSubb : Statement .tagSubb := by decide
theorem tagSubw : Statement .tagSubw := by decide
theorem tagSubl : Statement .tagSubl := by decide
theorem tagSubq : Statement .tagSubq := by decide
theorem tagSbbb : Statement .tagSbbb := by decide
theorem tagSbbw : Statement .tagSbbw := by decide
theorem tagSbbl : Statement .tagSbbl := by decide
theorem tagSbbq : Statement .tagSbbq := by decide
theorem tagLogicb : Statement .tagLogicb := by decide
theorem tagLogicw : Statement .tagLogicw := by decide
theorem tagLogicl : Statement .tagLogicl := by decide
theorem tagLogicq : Statement .tagLogicq := by decide
theorem tagIncb : Statement .tagIncb := by decide
theorem tagIncw : Statement .tagIncw := by decide
theorem tagIncl : Statement .tagIncl := by decide
theorem tagIncq : Statement .tagIncq := by decide
theorem tagDecb : Statement .tagDecb := by decide
theorem tagDecw : Statement .tagDecw := by decide
theorem tagDecl : Statement .tagDecl := by decide
theorem tagDecq : Statement .tagDecq := by decide
theorem tagShlb : Statement .tagShlb := by decide
theorem tagShlw : Statement .tagShlw := by decide
theorem tagShll : Statement .tagShll := by decide
theorem tagShlq : Statement .tagShlq := by decide
theorem tagSarb : Statement .tagSarb := by decide
theorem tagSarw : Statement .tagSarw := by decide
theorem tagSarl : Statement .tagSarl := by decide
theorem tagSarq : Statement .tagSarq := by decide

end Sys2Proof.Laws.TableRow
end

