-- ==== Sys2Proof/Laws/Step.lean ====
section
/-! SUPPORT. What a step can do, said once: it is idle, it deals with an input that is no command, it refuses a presented
command, or it runs the instruction the command word stands for. -/

namespace Sys2Proof.Machine

/-- What taking the next input can find. -/
theorem fetch_cases (s : State) :
    (s.inputs = [] ∧ fetch s = .idle)
      ∨ (∃ a b rest, s.inputs = .guestWrite a b :: rest
        ∧ fetch s = .settled (State.guestWrite { s with inputs := rest } a b))
      ∨ (∃ rest, s.inputs = .platformReset :: rest ∧ fetch s = .settled (State.resetAgain { s with inputs := rest }))
      ∨ ∃ c rest, s.inputs = .command c :: rest ∧ fetch s = fetchCommand { s with inputs := rest } c := by
  unfold fetch
  cases h : s.inputs with
  | nil => exact .inl ⟨rfl, rfl⟩
  | cons e rest =>
    cases e with
    | command c => exact .inr (.inr (.inr ⟨c, rest, rfl, rfl⟩))
    | guestWrite a b => exact .inr (.inl ⟨a, b, rest, rfl, rfl⟩)
    | platformReset => exact .inr (.inr (.inl ⟨rest, rfl, rfl⟩))

/-- What a presented command can find: ILLEGAL_CMD, or an instruction that its agent may issue. -/
theorem fetchCommand_cases (s : State) (c : Command) :
    fetchCommand s c = .settled (s.present c).illegal
      ∨ ∃ i, decode c.cmd = .ok i ∧ mayIssue c.agent i = true ∧ fetchCommand s c = .run i (s.present c) := by
  unfold fetchCommand
  cases h : decode c.cmd with
  | error e => exact .inl rfl
  | ok i =>
    cases hm : mayIssue c.agent i with
    | true => exact .inr ⟨i, rfl, hm, by simp [hm]⟩
    | false => exact .inl (by simp [hm])

/-- Everything a step that answers a next state did. -/
theorem step_cases {s t : State} (h : step s = .next t) :
    (s.inputs = [] ∧ t = s)
      ∨ (∃ a b rest, s.inputs = .guestWrite a b :: rest ∧ t = State.guestWrite { s with inputs := rest } a b)
      ∨ (∃ rest, s.inputs = .platformReset :: rest ∧ t = State.resetAgain { s with inputs := rest })
      ∨ ∃ c rest, s.inputs = .command c :: rest
        ∧ (t = (State.present { s with inputs := rest } c).illegal
          ∨ ∃ i, decode c.cmd = .ok i ∧ mayIssue c.agent i = true
            ∧ exec i (State.present { s with inputs := rest } c) = .next t) := by
  unfold step at h
  obtain ⟨hi, hf⟩ | ⟨a, b, rest, hi, hf⟩ | ⟨rest, hi, hf⟩ | ⟨c, rest, hi, hf⟩ := fetch_cases s
  · rw [hf] at h
    cases h
    exact .inl ⟨hi, rfl⟩
  · rw [hf] at h
    cases h
    exact .inr (.inl ⟨a, b, rest, hi, rfl⟩)
  · rw [hf] at h
    cases h
    exact .inr (.inr (.inl ⟨rest, hi, rfl⟩))
  · refine .inr (.inr (.inr ⟨c, rest, hi, ?_⟩))
    rw [hf] at h
    obtain hc | ⟨i, hd, hm, hc⟩ := fetchCommand_cases { s with inputs := rest } c
    · rw [hc] at h
      cases h
      exact .inl rfl
    · rw [hc] at h
      exact .inr ⟨i, hd, hm, h⟩

end Sys2Proof.Machine
end

