-- ==== Sys2Proof/Tests/Slice0.lean ====
section
/-! SUPPORT. The model's own tests: the checks of WellFormed, the decoder on words written out from the spec, single steps of
the vectors of 95_test_vectors.md, and for each obligation with hypotheses a witness that meets them. Expected values are
the spec's. -/

open Sys2Proof Sys2Proof.Machine Sys2Proof.Claims

namespace Sys2Proof.Tests

/-! ### Small states -/

/-- The parameters of 95_test_vectors.md at W = 64. -/
def params64 : Params := { Params.default with w := .w64 }

/-- Reset at W = 64. -/
def reset64 : State := State.atReset params64

/-- Reset with BOUND = {0, 3} (vectors RV6 to RV8). -/
def reset03 : State :=
  State.atReset { Params.default with
    bound := #v[true, false, false, true, false, false, false, false,
      false, false, false, false, false, false, false, false] }

/-- Reset without the boundary units (vector B5). -/
def resetBare : State := State.atReset { Params.default with boundaryUnits := false }

/-- C[k] = 0x11 * (k + 1) (vector RV1). -/
def gprs : Vector Word 16 := #v[0x11, 0x22, 0x33, 0x44, 0x55, 0x66, 0x77, 0x88, 0, 0, 0, 0, 0, 0, 0, 0]

/-- All eight bound registers written. -/
def written : Vector Bool 16 :=
  #v[true, true, true, true, true, true, true, true, false, false, false, false, false, false, false, false]

/-- The state with a command presented. -/
def State.given (s : State) (c : Command) : State := { s with inputs := [.command c] }

/-- A command with values on ports `a` and `b`. -/
def ab (w : BitVec 32) (a b : BitVec 64) : Command := { Command.ofWord w with a := a, b := b }

/-- A command with values on ports `addr` and `v`. -/
def av (w : BitVec 32) (addr : Word) (v : Slot) : Command := { Command.ofWord w with addr := addr, v := v }

/-- What f sees in the next state of the one step that runs the command. -/
def seen {α : Type} (s : State) (c : Command) (f : State → α) : Option α :=
  match step (State.given s c) with
  | .next t => some (f t)
  | .fault _ => none
  | .refused _ => none

/-- The port `fault` after the step. -/
def faultOf (s : State) (c : Command) : Option (Option PortFault) := seen s c State.fault

/-- The port `out` after the step. -/
def outOf (s : State) (c : Command) : Option (BitVec 64) := seen s c State.out

/-- A recorded ILLEGAL_CMD, nothing else changed. -/
def illegal (s : State) (c : Command) : Bool :=
  decide (seen s c State.settled
    = some ({ s with port := c, faultLog := s.faultLog ++ [.illegalCmd c.cmd] } : State).settled)
    && decide (faultOf s c = some (some (.model (.illegalCmd c.cmd))))

/-- The guest bytes from an address on. -/
def bytesAt (m : Memory) (a n : Nat) : List Byte := (List.range n).map fun j => Memory.read m (a + j)

/-! ### WellFormed -/

/-- 30_encoding.md R81: RIDX at or above NREGS; W = 64 has 16 registers. -/
theorem test_wf_gpr :
    (Instr.gprRd 8).wellFormed Params.default = false ∧ (Instr.gprWr 15).wellFormed Params.default = false
      ∧ (Instr.gprRd 7).wellFormed Params.default = true ∧ (Instr.gprWr 15).wellFormed params64 = true := by decide

/-- 30_encoding.md R81: RIDX not in BOUND. -/
theorem test_wf_loc :
    (Instr.locRd 1).wellFormed reset03.cfg = false ∧ (Instr.locWr 8).wellFormed Params.default = false
      ∧ (Instr.locRd 3).wellFormed reset03.cfg = true := by decide

/-- 30_encoding.md R81: SEL. -/
theorem test_wf_sel :
    (Instr.ccRdRaw 3).wellFormed Params.default = false ∧ (Instr.featRd 2).wellFormed Params.default = false
      ∧ (Instr.featRd 3).wellFormed Params.default = false ∧ (Instr.featRd 1).wellFormed Params.default = true := by decide

/-- 30_encoding.md R80: the boundary units absent. -/
theorem test_wf_boundary :
    (Instr.featLd).wellFormed resetBare.cfg = false ∧ (Instr.featRd 0).wellFormed resetBare.cfg = false
      ∧ (Instr.hasWork).wellFormed resetBare.cfg = false ∧ (Instr.chkHalt).wellFormed resetBare.cfg = false
      ∧ (Instr.irqOr).wellFormed resetBare.cfg = false ∧ (Instr.irqClr).wellFormed resetBare.cfg = false
      ∧ (Instr.irqRd).wellFormed resetBare.cfg = false ∧ (Instr.haltSet).wellFormed resetBare.cfg = false := by decide

/-- 00_scope.md R8: the legal parameters, and one illegal value of each kind. -/
theorem test_params_legal :
    Params.default.legal = true ∧ params64.legal = true
      ∧ Params.legal { Params.default with bound := Vector.replicate 16 true } = false
      ∧ Params.legal { Params.default with resetIp := 0x100000000 } = false
      ∧ Params.legal { Params.default with resetGpr := Vector.replicate 16 1 } = false
      ∧ Params.legal { Params.default with irqHard := 3 } = false
      ∧ Params.legal { Params.default with irqNmi := 0x400 } = false
      ∧ Params.legal { Params.default with svmeBit := 10 } = false := by decide

/-! ### Decoding -/

/-- The words of 30_encoding.md R72, R73 and R75, written out field by field. -/
theorem test_decode_registerFile :
    decode 0b000000_00000000000000000000000000 = .ok .nop
      ∧ decode 0b000001_1101_0000000000000000000000 = .ok (.gprRd 13)
      ∧ decode 0b000010_1101_0000000000000000000000 = .ok (.gprWr 13)
      ∧ decode 0b000011_1101_0000000000000000000000 = .ok (.locRd 13)
      ∧ decode 0b000100_1101_0000000000000000000000 = .ok (.locWr 13)
      ∧ decode 0b000101_00000000000000000000000000 = .ok .syncIn
      ∧ decode 0b000110_00000000000000000000000000 = .ok .syncOut
      ∧ decode 0b000111_00000000000000000000000000 = .ok .ipRd
      ∧ decode 0b001000_00000000000000000000000000 = .ok .ipWr := by decide

/-- The words of 30_encoding.md R72, R73 and R75, written out field by field. -/
theorem test_decode_conditionCodes :
    decode 0b010000_0000000_010_00000000_00101101 = .ok (.ccWr false true false 0x2D)
      ∧ decode 0b010000_0000000_101_00000000_10010110 = .ok (.ccWr true false true 0x96)
      ∧ decode 0b010001_00000000_10_0000000000000000 = .ok (.ccRdRaw 2)
      ∧ decode 0b010010_00000000000000000000000000 = .ok .ccFlags
      ∧ decode 0b010011_00000000000000000000000000 = .ok .ccCarry := by decide

/-- The words of 30_encoding.md R72, R73 and R75, written out field by field. -/
theorem test_decode_eflags :
    decode 0b011000_00000000000000000000000000 = .ok .eflPack
      ∧ decode 0b011001_00000000000000000000000000 = .ok .eflRestore
      ∧ decode 0b011010_00000000000000000000000000 = .ok .eflRestoreD
      ∧ decode 0b011011_00000000000000000000000000 = .ok .eflBaseRd
      ∧ decode 0b011100_00000000000000000000000000 = .ok .eflBaseWr
      ∧ decode 0b011101_00000000000000000000000000 = .ok .dfRd
      ∧ decode 0b011110_0000000000000000000000000_0 = .ok (.dfWr false)
      ∧ decode 0b011110_0000000000000000000000000_1 = .ok (.dfWr true) := by decide

/-- The words of 30_encoding.md R72, R73 and R75, written out field by field. -/
theorem test_decode_fpu :
    decode 0b100000_00000000000000000000000000 = .ok .fpuPush
      ∧ decode 0b100001_00000000000000000000000000 = .ok .fpuPop
      ∧ decode 0b100010_0000_110_0000000000000000000 = .ok (.fpuRd 6)
      ∧ decode 0b100011_0000_011_0000000000000000000 = .ok (.fpuWr 3)
      ∧ decode 0b100100_00000000000000000000000000 = .ok .fpuStRd
      ∧ decode 0b100101_00000000000000000000000000 = .ok .fpuStWr
      ∧ decode 0b100110_00000000000000000000000000 = .ok .fpuLd80
      ∧ decode 0b100111_00000000000000000000000000 = .ok .fpuSt80 := by decide

/-- The words of 30_encoding.md R72, R73 and R75, written out field by field. -/
theorem test_decode_boundary :
    decode 0b110000_00000000000000000000000000 = .ok .featLd
      ∧ decode 0b110001_00000000_01_0000000000000000 = .ok (.featRd 1)
      ∧ decode 0b110010_00000000000000000000000000 = .ok .hasWork
      ∧ decode 0b110011_00000000000000000000000000 = .ok .chkHalt
      ∧ decode 0b110100_00000000000000000000000000 = .ok .irqOr
      ∧ decode 0b110101_00000000000000000000000000 = .ok .irqClr
      ∧ decode 0b110110_00000000000000000000000000 = .ok .irqRd
      ∧ decode 0b110111_00000000000000000000000000 = .ok .haltSet := by decide

/-- The tag values 0 to 13 of 30_encoding.md R76. -/
theorem test_decode_tags0 :
    decodeTag 0 = some .tagDynamic
      ∧ decodeTag 1 = some .tagDirect
      ∧ decodeTag 2 = some .tagMulb
      ∧ decodeTag 3 = some .tagMulw
      ∧ decodeTag 4 = some .tagMull
      ∧ decodeTag 5 = some .tagMulq
      ∧ decodeTag 6 = some .tagAddb
      ∧ decodeTag 7 = some .tagAddw
      ∧ decodeTag 8 = some .tagAddl
      ∧ decodeTag 9 = some .tagAddq
      ∧ decodeTag 10 = some .tagAdcb
      ∧ decodeTag 11 = some .tagAdcw
      ∧ decodeTag 12 = some .tagAdcl
      ∧ decodeTag 13 = some .tagAdcq := by decide

/-- The tag values 14 to 27 of 30_encoding.md R76. -/
theorem test_decode_tags1 :
    decodeTag 14 = some .tagSubb
      ∧ decodeTag 15 = some .tagSubw
      ∧ decodeTag 16 = some .tagSubl
      ∧ decodeTag 17 = some .tagSubq
      ∧ decodeTag 18 = some .tagSbbb
      ∧ decodeTag 19 = some .tagSbbw
      ∧ decodeTag 20 = some .tagSbbl
      ∧ decodeTag 21 = some .tagSbbq
      ∧ decodeTag 22 = some .tagLogicb
      ∧ decodeTag 23 = some .tagLogicw
      ∧ decodeTag 24 = some .tagLogicl
      ∧ decodeTag 25 = some .tagLogicq
      ∧ decodeTag 26 = some .tagIncb
      ∧ decodeTag 27 = some .tagIncw := by decide

/-- The tag values 28 to 41 of 30_encoding.md R76. -/
theorem test_decode_tags2 :
    decodeTag 28 = some .tagIncl
      ∧ decodeTag 29 = some .tagIncq
      ∧ decodeTag 30 = some .tagDecb
      ∧ decodeTag 31 = some .tagDecw
      ∧ decodeTag 32 = some .tagDecl
      ∧ decodeTag 33 = some .tagDecq
      ∧ decodeTag 34 = some .tagShlb
      ∧ decodeTag 35 = some .tagShlw
      ∧ decodeTag 36 = some .tagShll
      ∧ decodeTag 37 = some .tagShlq
      ∧ decodeTag 38 = some .tagSarb
      ∧ decodeTag 39 = some .tagSarw
      ∧ decodeTag 40 = some .tagSarl
      ∧ decodeTag 41 = some .tagSarq := by decide

/-- 30_encoding.md R85 and the words of 95_test_vectors.md. -/
theorem test_encode :
    encode .ccDirect = .command 0x40040001 ∧ encode .cld = .command 0x78000000 ∧ encode .std = .command 0x78000001
      ∧ encode .fpuResetState = .command 0x94000000 ∧ encode (.gprWr 15) = .command 0x0BC00000
      ∧ encode (.ccWr false true true 0x0E) = .command 0x4003000E ∧ encode (.fpuRd 7) = .command 0x88380000
      ∧ encode (.featRd 2) = .command 0xC4020000 ∧ encode .haltSet = .command 0xDC000000 := by decide

/-- 30_encoding.md R78, R79; vectors RV12, RV13, CV8, E14, P16: rejected by name. -/
theorem test_decode_rejects :
    decode 0x04000001 = .error .reservedBit ∧ decode 0x24000000 = .error .unassignedOpcode
      ∧ decode 0x40070100 = .error .reservedBit ∧ decode 0x78000002 = .error .reservedBit
      ∧ decode 0x88000001 = .error .reservedBit ∧ decode 0x88400000 = .error .reservedBit
      ∧ decode 0x44040000 = .error .reservedBit ∧ decode 0x00000001 = .error .reservedBit
      ∧ decode 0x7C000000 = .error .unassignedOpcode ∧ decode 0xFC000000 = .error .unassignedOpcode
      ∧ decodeCode (.tag 42) = .error .undefinedTag ∧ decodeTag 255 = none := by decide

/-- 30_encoding.md R84: the examples of the rule. -/
theorem test_assemble :
    assemble { mnemonic := "GPR_WR", operand := .reg 3, a := 0x1234 } = some (ab 0x08C00000 0x1234 0)
      ∧ assemble { mnemonic := "EFL_RESTORE", operand := .none, a := 0x00000ED7, b := 0x00000200 }
        = some (ab 0x64000000 0x00000ED7 0x00000200)
      ∧ assemble { mnemonic := "FPU_ST80", operand := .none, addr := 0x1000, v := 0x3FFF8000000000000000 }
        = some (av 0x9C000000 0x1000 0x3FFF8000000000000000)
      ∧ assemble { mnemonic := "CC_WR", operand := .record true true true (.name "ADDB"), a := 1 }
        = some (ab 0x40070006 1 0)
      ∧ assemble { mnemonic := "FEAT_RD", operand := .sel "modes" } = some (.ofWord 0xC4010000)
      ∧ assemble { mnemonic := "FPU_RD", operand := .st 7 } = some (.ofWord 0x88380000) := by decide

/-- 30_encoding.md R84, R85: the pseudo-commands, a number as a tag, and lines that spell nothing. -/
theorem test_assemble_more :
    assemble { mnemonic := "CC_DIRECT", operand := .none } = some (.ofWord 0x40040001)
      ∧ assemble { mnemonic := "CLD", operand := .none } = some (.ofWord 0x78000000)
      ∧ assemble { mnemonic := "STD", operand := .none } = some (.ofWord 0x78000001)
      ∧ assemble { mnemonic := "FPU_RESET_STATE", operand := .none } = some (ab 0x94000000 0xFF00 0)
      ∧ assemble { mnemonic := "CC_WR", operand := .record true true true (.number 255) } = some (.ofWord 0x400700FF)
      ∧ assemble { mnemonic := "GPR_RD", operand := .reg 16 } = none
      ∧ assemble { mnemonic := "TAG_ADDB", operand := .none } = none := by decide

/-! ### Condition-code materialization: the 84 vectors of 95_test_vectors.md section 2.1 -/

/-- `cc_all` at W = 32. -/
def at32 (t : BitVec 8) (src dst : Word) : BitVec 32 := ccAll Params.default t src dst

/-- `cc_all` at W = 64. -/
def at64 (t : BitVec 8) (src dst : Word) : BitVec 32 := ccAll params64 t src dst

/-- 95_test_vectors.md section 2.1, V1 to V4. -/
theorem test_flags_direct :
    at32 1 0x0 0x0 = 0x000
    ∧ at32 1 0xffffffff 0x0 = 0x8d5
    ∧ at32 1 0x41 0x1234 = 0x041
    ∧ at32 1 0x800 0x0 = 0x800 := by decide

/-- 95_test_vectors.md section 2.1, V5 to V7. -/
theorem test_flags_undefined :
    at32 0 0xffffffff 0x0 = 0x000
    ∧ at32 42 0xffffffff 0x0 = 0x000
    ∧ at32 255 0xffffffff 0xffffffff = 0x000 := by decide

/-- 95_test_vectors.md section 2.1, V8 to V14. -/
theorem test_flags_mul :
    at32 2 0x0 0x0 = 0x044
    ∧ at32 2 0xff00 0x1 = 0x801
    ∧ at32 2 0x100 0x0 = 0x845
    ∧ at32 3 0x0 0x8000 = 0x084
    ∧ at32 4 0x1 0x80000000 = 0x885
    ∧ at32 5 0x0 0x0 = 0x000
    ∧ at64 5 0x5 0x0 = 0x845 := by decide

/-- 95_test_vectors.md section 2.1, V15 to V27. -/
theorem test_flags_add :
    at32 6 0x0 0x0 = 0x044
    ∧ at32 6 0x1 0x1 = 0x000
    ∧ at32 6 0x1 0x0 = 0x055
    ∧ at32 6 0x1 0x80 = 0x890
    ∧ at32 6 0x80 0x0 = 0x845
    ∧ at32 6 0x1 0x10 = 0x010
    ∧ at32 7 0x1 0x0 = 0x055
    ∧ at32 7 0x1 0x8000 = 0x894
    ∧ at32 8 0x1 0x0 = 0x055
    ∧ at32 8 0x1 0x80000000 = 0x894
    ∧ at32 9 0x1 0x1 = 0x000
    ∧ at64 9 0x1 0x0 = 0x055
    ∧ at64 9 0x1 0x8000000000000000 = 0x894 := by decide

/-- 95_test_vectors.md section 2.1, V28 to V34. -/
theorem test_flags_adc :
    at32 10 0x0 0x1 = 0x000
    ∧ at32 10 0x0 0x0 = 0x055
    ∧ at32 10 0xff 0x0 = 0x055
    ∧ at32 10 0xff 0xff = 0x095
    ∧ at32 10 0x0 0x80 = 0x890
    ∧ at32 11 0x0 0x0 = 0x055
    ∧ at32 12 0x0 0x80000000 = 0x894 := by decide

/-- 95_test_vectors.md section 2.1, V35 to V44. -/
theorem test_flags_sub :
    at32 14 0x3 0x2 = 0x000
    ∧ at32 14 0x1 0xff = 0x095
    ∧ at32 14 0x1 0x7f = 0x810
    ∧ at32 14 0xff 0x80 = 0x881
    ∧ at32 14 0x1 0xf = 0x014
    ∧ at32 14 0x33 0x0 = 0x044
    ∧ at32 15 0x1 0xffff = 0x095
    ∧ at32 16 0x0 0x0 = 0x044
    ∧ at32 16 0x1 0x7fffffff = 0x814
    ∧ at64 17 0x1 0xffffffffffffffff = 0x095 := by decide

/-- 95_test_vectors.md section 2.1, V45 to V50. -/
theorem test_flags_sbb :
    at32 18 0x0 0xff = 0x095
    ∧ at32 18 0x5 0xff = 0x095
    ∧ at32 18 0xff 0x0 = 0x055
    ∧ at32 18 0x0 0x7f = 0x810
    ∧ at32 18 0x2 0x3 = 0x004
    ∧ at32 20 0x0 0xffffffff = 0x095 := by decide

/-- 95_test_vectors.md section 2.1, V51 to V56. -/
theorem test_flags_logic :
    at32 22 0x0 0x0 = 0x044
    ∧ at32 22 0xaa 0x80 = 0x080
    ∧ at32 22 0x0 0x3 = 0x004
    ∧ at32 22 0x0 0x100 = 0x044
    ∧ at32 23 0x0 0x8000 = 0x084
    ∧ at32 24 0xffffffff 0x80000000 = 0x084 := by decide

/-- 95_test_vectors.md section 2.1, V57 to V64. -/
theorem test_flags_inc :
    at32 26 0x0 0x1 = 0x000
    ∧ at32 26 0x0 0x80 = 0x890
    ∧ at32 26 0x0 0x0 = 0x054
    ∧ at32 26 0x1 0x0 = 0x055
    ∧ at32 26 0x1 0x10 = 0x011
    ∧ at32 27 0x0 0x8000 = 0x894
    ∧ at32 28 0x0 0x0 = 0x054
    ∧ at32 26 0x2 0x1 = 0x000 := by decide

/-- 95_test_vectors.md section 2.1, V65 to V70. -/
theorem test_flags_dec :
    at32 30 0x0 0x0 = 0x044
    ∧ at32 30 0x0 0x7f = 0x810
    ∧ at32 30 0x1 0xff = 0x095
    ∧ at32 30 0x0 0xf = 0x014
    ∧ at32 31 0x0 0x7fff = 0x814
    ∧ at32 32 0x0 0xffffffff = 0x094 := by decide

/-- 95_test_vectors.md section 2.1, V71 to V77. -/
theorem test_flags_shl :
    at32 34 0x80 0x0 = 0x845
    ∧ at32 34 0x40 0x80 = 0x880
    ∧ at32 34 0xc0 0x80 = 0x081
    ∧ at32 34 0x1 0x2 = 0x000
    ∧ at32 34 0x84 0x8 = 0x801
    ∧ at32 35 0x8000 0x0 = 0x845
    ∧ at32 36 0x40000000 0x80000000 = 0x884 := by decide

/-- 95_test_vectors.md section 2.1, V78 to V84. -/
theorem test_flags_sar :
    at32 38 0x81 0xc0 = 0x085
    ∧ at32 38 0x1 0x0 = 0x045
    ∧ at32 38 0x81 0x40 = 0x801
    ∧ at32 38 0x2 0x1 = 0x000
    ∧ at32 38 0xfe 0xff = 0x084
    ∧ at32 39 0x8001 0xc000 = 0x085
    ∧ at32 40 0x80000000 0x40000000 = 0x804 := by decide

/-! ### Single steps: 95_test_vectors.md -/

/-- 40_register_file.md R100. -/
theorem test_nop : seen State.reset (.ofWord 0) State.settled = some State.reset.settled := by decide

/-- Vector RV1. -/
theorem test_gprRd : outOf { State.reset with gpr := gprs } (.ofWord 0x04800000) = some 0x33 := by decide

/-- Vector RV3. -/
theorem test_gprRd_absent : illegal State.reset (.ofWord 0x06000000) = true := by decide

/-- Vector RV2. -/
theorem test_gprWr :
    seen { State.reset with gpr := gprs } (ab 0x09C00000 0xFFFFFFFF00000099 0) (fun t => (t.gpr, t.loc))
      = some (#v[0x11, 0x22, 0x33, 0x44, 0x55, 0x66, 0x77, 0x99, 0, 0, 0, 0, 0, 0, 0, 0], State.reset.loc) := by decide

/-- Vector RV11. -/
theorem test_gprWr_64 :
    seen reset64 (ab 0x0BC00000 0xFFFFFFFFFFFFFFFF 0) (fun t => t.gprGet 15) = some 0xFFFFFFFFFFFFFFFF := by decide

/-- Vectors RV4, RV6. -/
theorem test_locRd_faults :
    faultOf State.reset (.ofWord 0x0C400000) = some (some (.model (.unwrittenLocal 1)))
      ∧ illegal reset03 (.ofWord 0x0C400000) = true := by decide

/-- Vector RV5, its second command. -/
theorem test_locRd :
    outOf { State.reset with gpr := gprs, loc := gprs, lvalid := written } (.ofWord 0x0C400000) = some 0x22 := by decide

/-- Vector RV7, its first command. -/
theorem test_locWr :
    seen reset03 (ab 0x10000000 5 0) (fun t => (t.locGet 0, t.locValid 0, t.locValid 3, t.gprGet 0))
      = some (5, true, false, 0) := by decide

/-- Vector RV5, its first command. -/
theorem test_syncIn :
    seen { State.reset with gpr := gprs } (.ofWord 0x14000000) (fun t => (t.locGet 1, t.lvalid))
      = some (0x22, written) := by decide

/-- Vector RV7, its second command: r3 is the one unwritten register. -/
theorem test_syncOut_unwritten :
    seen (reset03.locSet 0 5) (.ofWord 0x18000000) (fun t => (t.fault, t.gprGet 0))
      = some (some (.model (.unwrittenLocal 3)), 0) := by decide

/-- Vector RV8, its last command. -/
theorem test_syncOut :
    seen { reset03 with gpr := gprs, loc := (gprs.set 0 0x99), lvalid := written } (.ofWord 0x18000000)
        (fun t => (t.fault, t.gpr))
      = some (none, gprs.set 0 0x99) := by decide

/-- Vector RV10, its first command. -/
theorem test_ipRd : outOf State.reset (.ofWord 0x1C000000) = some 0xFFF0 := by decide

/-- Vector RV10, its second command; the upper half of `a` is dropped at W = 32 (30_encoding.md R74). -/
theorem test_ipWr : seen State.reset (ab 0x20000000 0x700401000 0) State.ip = some 0x00401000 := by decide

/-- Vector CV1, its first command. -/
theorem test_ccWr :
    seen State.reset (ab 0x40070006 1 0) (fun t => (t.tag, t.src, t.dst)) = some (6, 1, 0)
      ∧ seen State.reset (ab 0x4006000E 1 7) (fun t => (t.tag, t.src, t.dst)) = some (0x0E, 1, 0) := by decide

/-- Vector CV6, its first command. -/
theorem test_ccWr_nothing :
    seen State.reset (ab 0x4000000E 1 2) (fun t => (t.tag, t.src, t.dst)) = some (1, 0, 0) := by decide

/-- The state after vector CV1. -/
def afterCv1 : State := { State.reset with tag := 6, src := 1, dst := 0 }

/-- Vector CV2. -/
theorem test_ccRdRaw :
    outOf afterCv1 (.ofWord 0x44000000) = some 6 ∧ outOf afterCv1 (.ofWord 0x44010000) = some 1
      ∧ outOf afterCv1 (.ofWord 0x44020000) = some 0 := by decide

/-- Vector CV3. -/
theorem test_ccRdRaw_sel3 : illegal afterCv1 (.ofWord 0x44030000) = true := by decide

/-- Vector CV1, its second command, and CV9's. -/
theorem test_ccFlags :
    outOf afterCv1 (.ofWord 0x48000000) = some 0x055
      ∧ outOf { State.reset with tag := 255, src := 0xFFFFFFFF, dst := 0xFFFFFFFF } (.ofWord 0x48000000) = some 0 := by
  decide

/-- Vector CV4. -/
theorem test_ccCarry : outOf afterCv1 (.ofWord 0x4C000000) = some 1 := by decide

/-- Vectors E1, E15 (its last command). -/
theorem test_eflPack :
    outOf State.reset (.ofWord 0x60000000) = some 0x00000002
      ∧ outOf { State.reset with tag := 16, src := 1, dst := 0xFFFFFFFF, df := 0xFFFFFFFF, base := 0x202 }
        (.ofWord 0x60000000) = some 0x00000697 := by decide

/-- Vector E3. -/
theorem test_eflPack_contract :
    faultOf { State.reset with restorePending := true } (.ofWord 0x60000000) = some (some (.model .restoreContract)) := by
  decide

/-- Vector E2. -/
theorem test_eflRestore :
    seen State.reset (ab 0x64000000 0x00000ED7 0x00000200) (fun t => (t.src, t.df, t.base, t.restorePending, t.tag))
      = some (0x8D5, 0xFFFFFFFF, 0x00000202, true, 1) := by decide

/-- Vectors E7, E6: base, src and what is pending after the first command. -/
theorem test_eflRestoreD :
    seen State.reset (ab 0x68000000 0xFFFFFFFF 0xFFFFFFFF) (fun t => (t.base, t.df, t.src, t.tag, t.restorePending))
        = some (0xFFFFF32A, 0xFFFFFFFF, 0x8D5, 1, false)
      ∧ seen afterCv1 (ab 0x68000000 1 0) (fun t => (t.src, t.base, t.tag)) = some (1, 2, 1) := by decide

/-- Vector E10, its last two commands. -/
theorem test_eflBase :
    seen { State.reset with base := 0x202 } (ab 0x70000000 0 0x200) State.base = some 2
      ∧ outOf State.reset (.ofWord 0x6C000000) = some 0x00000002 := by decide

/-- Vector E11, its first command. -/
theorem test_eflBaseWr_owned : seen State.reset (ab 0x70000000 0xFFFFFFFF 0x000008D5) State.base = some 2 := by decide

/-- Vector E12. -/
theorem test_dfRd :
    outOf State.reset (.ofWord 0x74000000) = some 1
      ∧ outOf { State.reset with df := 0xFFFFFFFF } (.ofWord 0x74000000) = some 0xFFFFFFFFFFFFFFFF := by decide

/-- Vector E12, STD and CLD as DF_WR 1 and DF_WR 0. -/
theorem test_dfWr :
    seen State.reset (.ofWord 0x78000001) State.df = some 0xFFFFFFFF
      ∧ seen { State.reset with df := 0xFFFFFFFF } (.ofWord 0x78000000) State.df = some 1 := by decide

/-- Vector P1: 0x7F07 is top 7 and ftag[7] valid. -/
theorem test_fpuPush :
    seen State.reset (.ofWord 0x80000000) (fun t => (t.top, t.ftag)) = some (7, 0x7F)
      ∧ outOf { State.reset with top := 7, ftag := 0x7F } (.ofWord 0x90000000) = some 0x7F07 := by decide

/-- Vector P3. -/
theorem test_fpuPop :
    seen { State.reset with top := 7, ftag := 0 } (.ofWord 0x84000000) (fun t => (t.top, t.ftag)) = some (0, 0x80) := by
  decide

/-- Vector P6, its last two commands. -/
theorem test_fpuRd :
    seen { State.reset with top := 6, slots := #v[0, 0, 0, 0, 0, 0, 0x40008000000000000000, 0x3FFF8000000000000000] }
        (.ofWord 0x88080000) State.out80
      = some 0x3FFF8000000000000000 := by decide

/-- Vector P6, its second command. -/
theorem test_fpuWr :
    seen { State.reset with top := 7, ftag := 0x7F } (av 0x8C000000 0 0x3FFF8000000000000000)
        (fun t => (t.slotGet 7, t.slotGet 0, t.top, t.ftag))
      = some (0x3FFF8000000000000000, 0, 7, 0x7F) := by decide

/-- Vector P15. -/
theorem test_fpuStWr :
    seen State.reset (ab 0x94000000 0xFFFFFFFFFFFFA5FD 0) (fun t => (t.top, t.ftag)) = some (5, 0xA5)
      ∧ outOf { State.reset with top := 5, ftag := 0xA5 } (.ofWord 0x90000000) = some 0xA505 := by decide

/-- The image of 1.0 at 0x1000 (vector P8). -/
def oneAt1000 : Memory := [(0x1007, 0x80), (0x1008, 0xFF), (0x1009, 0x3F)]

/-- Vector P9. -/
theorem test_fpuLd80 :
    seen { State.reset with mem := oneAt1000 } (av 0x98000000 0x1000 0) (fun t => (t.out80, t.memPort))
      = some (0x3FFF8000000000000000, [.read 0x1000 8, .read 0x1008 2]) := by decide

/-- Vector P13. -/
theorem test_fpuLd80_fault :
    seen State.reset { av 0x98000000 0x3000 0 with first := { disturbance := [], failure := some 0 } }
        (fun t => (t.fault, t.memPort))
      = some (some (.memFault 0x3000 8 .read), [.read 0x3000 8]) := by decide

/-- Vectors P8, P10: the second wraps at 2^32. -/
theorem test_fpuSt80 :
    seen State.reset (av 0x9C000000 0x1000 0x3FFF8000000000000000) State.mem = some oneAt1000
      ∧ seen State.reset (av 0x9C000000 0xFFFFFFFC 0x7FFFC000000000000001) State.mem
        = some [(3, 0xC0), (4, 0xFF), (5, 0x7F), (0xFFFFFFFC, 0x01)] := by decide

/-- Vector P12, with byte 0x2009 new and byte 0x2008 old. -/
theorem test_fpuSt80_fault :
    seen { State.reset with
          mem := [(0x2000, 0xAA), (0x2001, 0xAA), (0x2002, 0xAA), (0x2003, 0xAA), (0x2004, 0xAA), (0x2005, 0xAA),
            (0x2006, 0xAA), (0x2007, 0xAA), (0x2008, 0xAA), (0x2009, 0xAA)] }
        { av 0x9C000000 0x2000 0x3FFF8000000000000000 with second := { disturbance := [], failure := some 2 } }
        (fun t => (t.fault, bytesAt t.mem 0x2000 10))
      = some (some (.memFault 0x2008 2 .write), [0, 0, 0, 0, 0, 0, 0, 0x80, 0xAA, 0x3F]) := by decide

/-- Vectors B1, B3: bits 10 and 12 of FEAT_LD. -/
theorem test_featLd :
    seen State.reset (ab 0xC0000000 0x500 0) (fun t => (t.feat, t.lma, t.svme)) = some (0x500, true, false)
      ∧ seen State.reset (ab 0xC0000000 0xFFFFFFFFFFFFEBFF 0) (fun t => (t.lma, t.svme)) = some (false, false) := by decide

/-- Vectors B2, B4. -/
theorem test_featRd :
    outOf { State.reset with feat := 0x1000, lma := false, svme := true } (.ofWord 0xC4010000) = some 2
      ∧ outOf { State.reset with feat := 0x500, lma := true } (.ofWord 0xC4000000) = some 0x500
      ∧ illegal State.reset (.ofWord 0xC4020000) = true := by decide

/-- The truth table of 95_test_vectors.md section 2.6: an interrupt request with IF 0 and 1, and each other condition. -/
theorem test_hasWork :
    outOf { State.reset with irq := 0x002 } (.ofWord 0xC8000000) = some 0
      ∧ outOf { State.reset with irq := 0x002, base := 0x202 } (.ofWord 0xC8000000) = some 1
      ∧ outOf { State.reset with base := 0x202 } (.ofWord 0xC8000000) = some 0
      ∧ outOf { State.reset with irq := 0x200 } (.ofWord 0xC8000000) = some 1
      ∧ outOf { State.reset with irq := 0x400 } (.ofWord 0xC8000000) = some 1
      ∧ outOf { State.reset with irq := 0x800 } (.ofWord 0xC8000000) = some 1
      ∧ outOf { State.reset with irq := 0xFFFFF1FD, base := 0x202 } (.ofWord 0xC8000000) = some 0 := by decide

/-- Vectors B5, B11. -/
theorem test_boundary_illegal :
    illegal resetBare (.ofWord 0xC8000000) = true
      ∧ illegal State.reset { Command.ofWord 0xC8000000 with agent := .other } = true
      ∧ illegal State.reset { Command.ofWord 0 with agent := .other } = true := by decide

/-- Vectors B6, B7, B8: running, halted and masked, halted and woken. -/
theorem test_chkHalt :
    outOf State.reset (.ofWord 0xCC000000) = some 0
      ∧ seen { State.reset with halted := true, irq := 2 } (.ofWord 0xCC000000) (fun t => (t.out, t.halted))
        = some (1, true)
      ∧ seen { State.reset with halted := true, irq := 2, base := 0x202 } (.ofWord 0xCC000000)
          (fun t => (t.out, t.halted, t.irq))
        = some (0, false, 2) := by decide

/-- Vector B6, its first command. -/
theorem test_haltSet : seen State.reset (.ofWord 0xDC000000) State.halted = some true := by decide

/-- Vector B9, and Program 4's request from another agent. -/
theorem test_irq :
    seen { State.reset with irq := 2 } (ab 0xD0000000 0x200 0) State.irq = some 0x202
      ∧ outOf { State.reset with irq := 0x202 } (.ofWord 0xD8000000) = some 0x202
      ∧ seen { State.reset with irq := 0x202 } (ab 0xD4000000 2 0) State.irq = some 0x200
      ∧ seen State.reset { ab 0xD0000000 2 0 with agent := .other } State.irq = some 2 := by decide

/-- 30_encoding.md R85, the arms of the pseudo-commands. -/
theorem test_pseudo :
    (match exec .ccDirect { State.reset with tag := 6, restorePending := true } with
        | .next t => (t.tag, t.restorePending)
        | _ => (0, true)) = (1, false)
      ∧ (match exec .fpuResetState { State.reset with top := 3, ftag := 0 } with
        | .next t => (t.top, t.ftag)
        | _ => (0, 0)) = (0, 0xFF) := by decide

/-- 20_memory.md R58: another agent's byte lands between the two accesses of a load. -/
theorem test_disturbed_load :
    seen { State.reset with mem := oneAt1000 }
        { av 0x98000000 0x1000 0 with second := { disturbance := [(0, 0x1009, 0xBF)], failure := none } } State.out80
      = some 0xBFFF8000000000000000 := by decide

/-- withFetchWord and decodeTableWord: a command row and a tag row, from reset. -/
theorem test_placed :
    decodeTableWord 32 0x04800000 = some (.gprRd 2) ∧ decodeTableWord 8 6 = some .tagAddb
      ∧ decodeTableWord 8 42 = none ∧ decodeTableWord 32 0x24000000 = none
      ∧ (match step (State.reset.withFetchWord 8 26) with
        | .next t => (t.out, t.tag)
        | _ => (0, 0)) = (0x054, 26)
      ∧ (match step (State.reset.withFetchWord 32 0x1C000000) with
        | .next t => t.out
        | _ => 0) = 0xFFF0 := by decide

/-- 70_reset_and_hazards.md R260, 20_memory.md R59: the inputs that are no command. -/
theorem test_other_inputs :
    (match step { State.reset with ip := 5, faultLog := [.restoreContract], mem := oneAt1000, inputs := [.platformReset] } with
        | .next t => (t.ip, t.faultLog, t.mem)
        | _ => (0, [], [])) = (0xFFF0, [], oneAt1000)
      ∧ (match step { State.reset with inputs := [.guestWrite 0x1008 0x11] } with
        | .next t => t.mem
        | _ => []) = [(0x1008, 0x11)] := by decide

/-! ### Witnesses: each obligation's hypotheses are met -/

/-- ResetAppliedAgainStartsANewBlock. -/
theorem witness_ResetAppliedAgainStartsANewBlock :
    ({ State.reset with inputs := [.platformReset] } : State).inputs = .platformReset :: [] := rfl

/-- ResetMeetsEveryInvariant: legal parameters of both widths. -/
theorem witness_ResetMeetsEveryInvariant : Params.default.legal = true ∧ params64.legal = true := by decide

/-- StepRunsThePresentedCommand: the first and the last opcode. -/
theorem witness_StepRunsThePresentedCommand :
    (State.given State.reset (.ofWord 0)).inputs = .command (.ofWord 0) :: [] ∧ (Command.ofWord 0).agent = .owner
      ∧ decode (Command.ofWord 0).cmd = .ok .nop ∧ decode (Command.ofWord 0xDC000000).cmd = .ok .haltSet := by decide

/-- PlacedInstructionRunsNext: both clauses, the ends of the tag range. -/
theorem witness_PlacedInstructionRunsNext :
    decodeTableWord 32 (0xDC000000 : BitVec 32).toNat = some .haltSet
      ∧ decodeTableWord 8 (0 : BitVec 8).toNat = some .tagDynamic
      ∧ decodeTableWord 8 (41 : BitVec 8).toNat = some .tagSarq := by decide

/-- EveryStepHasANextState: idle, and another agent's write at the top of the address space. -/
theorem witness_EveryStepHasANextState :
    State.reset.inputs = []
      ∧ ({ State.reset with inputs := [.guestWrite 0xFFFFFFFF 1] } : State).inputs = .guestWrite 0xFFFFFFFF 1 :: []
      ∧ Memory.wf State.reset.mem = true ∧ 0 ≠ (0xFFFFFFFF : Word).toNat % 2 ^ widthBits State.reset.cfg := by decide

/-- EncodedInstructionsDecodeBack: an instruction that is no pseudo-command. -/
theorem witness_EncodedInstructionsDecodeBack :
    Instr.nop ≠ .ccDirect ∧ Instr.nop ≠ .cld ∧ Instr.nop ≠ .std ∧ Instr.nop ≠ .fpuResetState := by decide

/-- DecodedCodesAreEncodings: both spaces. -/
theorem witness_DecodedCodesAreEncodings :
    decodeCode (.command 0xDC000000) = .ok .haltSet ∧ decodeCode (.tag 41) = .ok .tagSarq := by decide

/-- UnassignedOpcodesAndReservedBitsAreIllegal: the ends of each gap, and a reserved bit of each format. -/
theorem witness_UnassignedOpcodesAndReservedBitsAreIllegal :
    (∀ op ∈ [0x09, 0x0F, 0x14, 0x17, 0x1F, 0x28, 0x2F, 0x38, 0x3F], unassigned op)
      ∧ List.all [0x02000000, 0x04200000, 0x88400000, 0x40000100, 0x44040000, 0x78000002]
        (fun w : BitVec 32 => decide (w &&& mustBeZero (opOf w) ≠ 0)) = true := by
  constructor
  · simp [unassigned]
  · decide

/-- AbsentBoundaryUnitsAreIllegal: the first and the last opcode. -/
theorem witness_AbsentBoundaryUnitsAreIllegal :
    (State.given resetBare (.ofWord 0xC0000000)).inputs = .command (.ofWord 0xC0000000) :: []
      ∧ resetBare.cfg.boundaryUnits = false ∧ opOf 0xC0000000 = 0x30 ∧ opOf 0xDC000000 = 0x37 := by decide

/-- IllegalFieldValuesFault: the first register that does not exist, and the first unbound one. -/
theorem witness_IllegalFieldValuesFault :
    nregs State.reset.cfg ≤ (8 : BitVec 4).toNat ∧ isBound State.reset.cfg 8 = false ∧ isBound reset03.cfg 1 = false := by
  decide

/-- OnlyIllFormedCommandsAreIllegal: both clauses. -/
theorem witness_OnlyIllFormedCommandsAreIllegal :
    (Instr.gprRd 8).wellFormed State.reset.cfg = false ∧ (Instr.gprRd 7).wellFormed State.reset.cfg = true
      ∧ ∃ t, exec (.gprRd 7) State.reset = .next t := ⟨by decide, by decide, _, rfl⟩

/-- OtherAgentsMayOnlyOrIrq: both clauses. -/
theorem witness_OtherAgentsMayOnlyOrIrq :
    ({ Command.ofWord 0xD0000000 with agent := .other } : Command).agent = .other ∧ decode 0xD0000000 = .ok .irqOr
      ∧ decode 0xD4000000 = .ok .irqClr ∧ Instr.irqClr ≠ .irqOr := by decide

/-- GeneralRegistersReadAndWrite: the last register of each width, and another register. -/
theorem witness_GeneralRegistersReadAndWrite :
    (7 : BitVec 4).toNat < nregs State.reset.cfg ∧ (15 : BitVec 4).toNat < nregs reset64.cfg ∧ (0 : BitVec 4) ≠ 7 := by
  decide

/-- LocalRegistersReadAndWrite: a bound register, written and unwritten. -/
theorem witness_LocalRegistersReadAndWrite :
    isBound State.reset.cfg 7 = true ∧ State.reset.locValid 7 = false
      ∧ (State.reset.locSet 7 1).locValid 7 = true ∧ isBound (State.reset.locSet 7 1).cfg 7 = true
      ∧ (0 : BitVec 4) ≠ 7 := by decide

/-- SyncInCopiesTheBoundRegisters: a bound and an unbound register. -/
theorem witness_SyncInCopiesTheBoundRegisters :
    isBound State.reset.cfg 7 = true ∧ isBound State.reset.cfg 8 = false := by decide

/-- SyncOutCopiesOrNamesAnUnwrittenRegister: both clauses. -/
theorem witness_SyncOutCopiesOrNamesAnUnwrittenRegister :
    (∀ r, isBound State.reset.cfg r = true → ({ State.reset with lvalid := written } : State).locValid r = true)
      ∧ ∃ r, isBound State.reset.cfg r = true ∧ State.reset.locValid r = false := by
  exact ⟨by decide, 0, by decide, by decide⟩

/-- MirrorKeepsValues: r0 bound, every other bound register written. -/
theorem witness_MirrorKeepsValues :
    isBound State.reset.cfg 0 = true
      ∧ ∀ q, isBound State.reset.cfg q = true → q ≠ 0 →
        ({ State.reset with lvalid := written.set 0 false } : State).locValid q = true := by decide

/-- FlagReadsReturnTheMask: by a contract that is not strict, and by nothing pending. -/
theorem witness_FlagReadsReturnTheMask :
    flagsReadable State.reset
      ∧ flagsReadable (State.atReset { Params.default with strictRestore := false }) := ⟨.inr rfl, .inl rfl⟩

/-- ABrokenContractFaultsTheFlagReads: both clauses. -/
theorem witness_ABrokenContractFaultsTheFlagReads :
    ({ State.reset with restorePending := true } : State).cfg.strictRestore = true
      ∧ ({ State.reset with restorePending := true } : State).restorePending = true
      ∧ (State.atReset { Params.default with strictRestore := false }).cfg.strictRestore = false := by decide

/-- CcFlagsRunsTheTagInTheRegister: the reset tag. -/
theorem witness_CcFlagsRunsTheTagInTheRegister :
    flagsReadable State.reset ∧ decodeTag State.reset.tag = some .tagDirect := ⟨.inr rfl, by decide⟩

/-- TagsWithoutAWidthFollowTheirRules: tag 42, readable. -/
theorem witness_TagsWithoutAWidthFollowTheirRules :
    flagsReadable { State.reset with tag := 42 } ∧ 42 ≤ (42 : BitVec 8).toNat ∧ 42 ≤ (255 : BitVec 8).toNat :=
  ⟨.inr rfl, by decide, by decide⟩

/-- QuadwordTagsGiveZeroAtW32. -/
theorem witness_QuadwordTagsGiveZeroAtW32 :
    State.reset.cfg.w = .w32 ∧ Instr.tagSarq ∈ [Instr.tagMulq, .tagAddq, .tagAdcq, .tagSubq, .tagSbbq, .tagLogicq,
      .tagIncq, .tagDecq, .tagShlq, .tagSarq] ∧ decodeTag 41 = some .tagSarq := by decide

/-- The four obligations that use `tagRuns`: every width has a block it fits. -/
theorem witness_tagRuns :
    8 ≤ widthBits State.reset.cfg ∧ 32 ≤ widthBits State.reset.cfg ∧ 64 ≤ widthBits reset64.cfg := by decide

/-- ShiftFlagsReportTheLastBitOut: the least and the greatest count. -/
theorem witness_ShiftFlagsReportTheLastBitOut : 1 ≤ 1 ∧ 1 ≤ opBits .b ∧ 1 ≤ 64 ∧ 64 ≤ opBits .q := by decide

/-- EflPackMergesTheThreeSources. -/
theorem witness_EflPackMergesTheThreeSources :
    flagsReadable State.reset ∧ State.reset.baseOk = true ∧ State.reset.dfOk = true
      ∧ ∃ t, exec .eflPack State.reset = .next t := ⟨.inr rfl, by decide, by decide, _, rfl⟩

/-- DirectionFlagReadsAndWrites: both values. -/
theorem witness_DirectionFlagReadsAndWrites :
    State.reset.df = 1 ∧ ({ State.reset with df := 0xFFFFFFFF } : State).df = 0xFFFFFFFF := by decide

/-- EflagsRoundTripBitByBit. -/
theorem witness_EflagsRoundTripBitByBit :
    State.reset.baseOk = true ∧ ∃ p, exec .eflPack State.reset = .next p ∧ p.fault = none :=
  ⟨by decide, _, rfl, rfl⟩

/-- StackSlotsReadAndWrite: the index wraps. -/
theorem witness_StackSlotsReadAndWrite :
    (6 : BitVec 3).toNat = (({ State.reset with top := 7 } : State).top.toNat + (7 : BitVec 3).toNat) % 8
      ∧ (0 : BitVec 3) ≠ 6 := by decide

/-- PushAndPopSequences. -/
theorem witness_PushAndPopSequences :
    (∀ i ∈ [Instr.fpuPop, .fpuPush], i = .fpuPush ∨ i = .fpuPop)
      ∧ [Instr.fpuPop, .fpuPush].count .fpuPush = [Instr.fpuPop, .fpuPush].count .fpuPop := by decide

/-- A block whose ports hold a transfer at 0x1000 that completes while other agents write 0x2000, then 0x1000 or 0x2000. -/
def disturbed (second : Nat) : State :=
  { State.reset with
    mem := oneAt1000
    port := { av 0 0x1000 0 with
      first := { disturbance := [(3, 0x2000, 7)], failure := none }
      second := { disturbance := [(0, second, 9)], failure := none } } }

/-- LoadReturnsTheTenBytes: every premise, a byte of each access that is not written, and bytes that others write: byte 0 of the
transfer by the second access alone, which a load has passed by then. -/
theorem witness_LoadReturnsTheTenBytes :
    completes (disturbed 0x1000) ∧ transferAddr (disturbed 0x1000) 0 = 0x1000 ∧ transferAddr (disturbed 0x1000) 9 = 0x1009
      ∧ ¬ disturbs (disturbed 0x1000).cfg (disturbed 0x1000).port.first 0x1000
      ∧ disturbs (disturbed 0x1000).cfg (disturbed 0x1000).port.second 0x1000
      ∧ ¬ disturbs (disturbed 0x1000).cfg (disturbed 0x1000).port.first 0x1009
      ∧ ¬ disturbs (disturbed 0x1000).cfg (disturbed 0x1000).port.second 0x1009
      ∧ State.reset.port.first.disturbance = [] ∧ State.reset.port.second.disturbance = [] := by
  refine ⟨⟨rfl, rfl⟩, by decide, by decide, ?_, ?_, ?_, ?_, rfl, rfl⟩
  · simp [disturbs, disturbed, truncW, State.reset, State.atReset, Params.default]
  · exact ⟨_, List.mem_singleton.mpr rfl, by decide⟩
  · simp [disturbs, disturbed, truncW, State.reset, State.atReset, Params.default]
  · simp [disturbs, disturbed, truncW, State.reset, State.atReset, Params.default]

/-- The addresses that the two answers write, as a check that can be evaluated. -/
def sparesAll (s : State) (ans : Answer) : Bool :=
  (List.range 10).all fun j => ans.disturbance.all fun e =>
    decide (transferAddr s j ≠ (truncW s.cfg (BitVec.ofNat 64 e.2.1)).toNat)

theorem not_disturbs_of_sparesAll {s : State} {ans : Answer} (h : sparesAll s ans = true) (j : Nat) (hj : j < 10) :
    ¬ disturbs s.cfg ans (transferAddr s j) := by
  rintro ⟨e, he, hq⟩
  simp only [sparesAll, List.all_eq_true, decide_eq_true_eq] at h
  exact h j (List.mem_range.mpr hj) e he hq

/-- StoreWritesTheTenBytes, StoreThenLoadReturnsThePattern: transfers that complete while other agents write elsewhere. -/
theorem witness_completingTransfers :
    completes (disturbed 0x2000) ∧ Memory.wf (disturbed 0x2000).mem = true
      ∧ (∀ j, j < 10 → ¬ disturbs (disturbed 0x2000).cfg (disturbed 0x2000).port.first (transferAddr (disturbed 0x2000) j)
        ∧ ¬ disturbs (disturbed 0x2000).cfg (disturbed 0x2000).port.second (transferAddr (disturbed 0x2000) j))
      ∧ (∃ t m, exec .fpuSt80 (disturbed 0x2000) = .next t
        ∧ ∀ j, j < 10 → Memory.read m (transferAddr (disturbed 0x2000) j)
          = Memory.read t.mem (transferAddr (disturbed 0x2000) j))
      ∧ (disturbed 0x2000).port.first.disturbance ≠ []
      ∧ ∀ j, j < 10 → (0x100A : Nat) ≠ transferAddr (disturbed 0x2000) j :=
  ⟨⟨rfl, rfl⟩, by decide,
    fun j hj => ⟨not_disturbs_of_sparesAll (by decide) j hj, not_disturbs_of_sparesAll (by decide) j hj⟩,
    ⟨_, _, rfl, fun _ _ => rfl⟩, by decide, by decide⟩

/-- 20_memory.md R58: other agents' bytes elsewhere change nothing of the store and of the load. -/
theorem test_disturbed_elsewhere :
    seen State.reset
        { av 0x9C000000 0x1000 0x3FFF8000000000000000 with first := { disturbance := [(3, 0x2000, 7)], failure := none } }
        (fun t => (t.fault, t.mem))
      = some (none, oneAt1000 ++ [(0x2000, 7)])
      ∧ seen (disturbed 0x2000) { (disturbed 0x2000).port with cmd := 0x98000000 } State.out80
        = some 0x3FFF8000000000000000 := by decide

/-- The reset state with failing accesses: the first, or only the second. -/
def failing (first second : Option (BitVec 8)) : State :=
  { State.reset with
    port := { Command.ofWord 0 with
      first := { disturbance := [], failure := first }
      second := { disturbance := [], failure := second } } }

/-- The reset state with a store that fails while another agent writes 0x2000. -/
def failingDisturbed (first second : Option (BitVec 8)) : State :=
  { State.reset with
    port := { Command.ofWord 0 with
      first := { disturbance := [(1, 0x2000, 7)], failure := first }
      second := { disturbance := [(1, 0x2000, 9)], failure := second } } }

/-- FailedStoresLeaveOldOrNewBytes: both clauses, while other agents write elsewhere, with a byte that landed and one that did
not. -/
theorem witness_FailedStoresLeaveOldOrNewBytes :
    Memory.wf (failingDisturbed (some 5) none).mem = true
      ∧ (failingDisturbed (some 5) none).port.first.failure = some 5
      ∧ (∀ j, j < 10 → ¬ disturbs State.reset.cfg (failingDisturbed (some 5) none).port.first
        (transferAddr (failingDisturbed (some 5) none) j))
      ∧ (failingDisturbed none (some 2)).port.first.failure = none
      ∧ (failingDisturbed none (some 2)).port.second.failure = some 2
      ∧ (∀ j, j < 10 → ¬ disturbs State.reset.cfg (failingDisturbed none (some 2)).port.second
        (transferAddr (failingDisturbed none (some 2)) j))
      ∧ (2 : BitVec 8).getLsbD 0 = false ∧ (2 : BitVec 8).getLsbD 1 = true
      ∧ (∀ j, j < 10 → 10 ≠ transferAddr (failingDisturbed none (some 2)) j) :=
  ⟨by decide, rfl, fun j hj => not_disturbs_of_sparesAll (s := failingDisturbed (some 5) none) (by decide) j hj, rfl, rfl,
    fun j hj => not_disturbs_of_sparesAll (s := failingDisturbed none (some 2)) (by decide) j hj, by decide, by decide,
    by decide⟩

/-- FailedLoadsReportTheAccess: both clauses, and an address that no other agent writes. -/
theorem witness_FailedLoadsReportTheAccess :
    Memory.wf (failing (some 0) none).mem = true ∧ (failing (some 0) none).port.first.failure ≠ none
      ∧ (failing none (some 0)).port.first.failure = none ∧ (failing none (some 0)).port.second.failure ≠ none
      ∧ ¬ disturbs State.reset.cfg (failing (some 0) none).port.first 0 := by
  refine ⟨by decide, by decide, by decide, by decide, ?_⟩
  simp [disturbs, failing]

/-- OnlyTransfersTouchGuestMemory: both clauses, for a store the byte after its ten. -/
theorem witness_OnlyTransfersTouchGuestMemory :
    (∃ t, exec .nop State.reset = .next t) ∧ (∃ t, exec .fpuSt80 State.reset = .next t)
      ∧ Memory.wf State.reset.mem = true ∧ (Instr.nop ≠ .fpuLd80 ∧ Instr.nop ≠ .fpuSt80)
      ∧ (∀ j, j < 10 → 10 ≠ transferAddr State.reset j) ∧ ¬ disturbs State.reset.cfg State.reset.port.first 10 := by
  refine ⟨⟨_, rfl⟩, ⟨_, rfl⟩, by decide, by decide, by decide, ?_⟩
  simp [disturbs, State.reset, State.atReset, Command.ofWord, Answer.plain]

/-- FeatureRegisterLoadsAndReads, HasWorkTestsTheFourConditions, HaltAndWake: the units present, running, halted with work,
halted without. -/
theorem witness_boundary :
    State.reset.cfg.boundaryUnits = true ∧ State.reset.halted = false
      ∧ ({ State.reset with halted := true, irq := 0x200 } : State).halted = true
      ∧ hasPendingWork { State.reset with halted := true, irq := 0x200 } = true
      ∧ hasPendingWork { State.reset with halted := true } = false := by decide

/-- InterruptRequestBits: two requests. -/
theorem witness_InterruptRequestBits :
    State.reset.cfg.boundaryUnits = true ∧ decode (ab 0xD0000000 2 0).cmd = .ok .irqOr
      ∧ decode ({ ab 0xD0000000 0x200 0 with agent := .other } : Command).cmd = .ok .irqOr := by decide

/-- PseudoCommandsAreTheirExpansions: a line of R85, presented. -/
theorem witness_PseudoCommandsAreTheirExpansions :
    asmInstr { mnemonic := "STD", operand := .none } = some .std
      ∧ assemble { mnemonic := "STD", operand := .none } = some (.ofWord 0x78000001)
      ∧ (State.given State.reset (.ofWord 0x78000001)).inputs = .command (.ofWord 0x78000001) :: [] := by decide

/-- EachCommandWritesOnlyItsOwnState, ModelFaultsAreRecordedAndChangeNothing: a command that succeeds and one that faults. -/
theorem witness_exec :
    (∃ t, exec .ipWr State.reset = .next t) ∧ ∃ t, exec (.locRd 0) State.reset = .next t := ⟨⟨_, rfl⟩, ⟨_, rfl⟩⟩

/-- The four StepsKeep statements: a step from reset, where every invariant holds. -/
theorem witness_StepsKeep :
    State.reset.inv = true ∧ State.reset.baseOk = true ∧ State.reset.dfOk = true ∧ State.reset.modesOk = true
      ∧ State.reset.memOk = true ∧ State.reset.cfg.legal = true ∧ State.reset.widthsOk = true
      ∧ State.reset.boundaryOk = true ∧ ∃ t, step (State.given State.reset (.ofWord 0x80000000)) = .next t := by
  refine ⟨by decide, by decide, by decide, by decide, by decide, by decide, by decide, by decide, _, rfl⟩

end Sys2Proof.Tests
end

/-! SUPPORT. What a command can do, said once for the whole dispatch: which writes of the block it makes, and how it ends.
Every statement about all commands or all steps is then a case analysis of `Writes` and `Ends`. -/

namespace Sys2Proof.Machine

/-- The block as the command `i` leaves it, run in `s`, before it ends on the result ports. The word of FPU_RESET_STATE is a
variable: the kernel would unfold the literal wherever it compares two states. -/
inductive Writes (s : State) : Instr → State → Prop where
  | none {i : Instr} : Writes s i s
  | gprWr {r : BitVec 4} (h : r.toNat < nregs s.cfg) : Writes s (.gprWr r) (s.gprSet r (portA s))
  | locWr {r : BitVec 4} (h : isBound s.cfg r = true) : Writes s (.locWr r) (s.locSet r (portA s))
  | syncIn : Writes s .syncIn s.mirrorIn
  | syncOut (h : s.unwritten = []) : Writes s .syncOut s.mirrorOut
  | ipWr : Writes s .ipWr { s with ip := portA s }
  | ccWr {wt ws wd : Bool} {t : BitVec 8} :
      Writes s (.ccWr wt ws wd t) (s.ccRecord wt ws wd t (portA s) (portB s))
  | ccDirect : Writes s .ccDirect (s.ccRecord true false false 1 (portA s) (portB s))
  | eflRestore : Writes s .eflRestore (s.restoreEflags false (portA32 s) (portB32 s))
  | eflRestoreD : Writes s .eflRestoreD (s.restoreEflags true (portA32 s) (portB32 s))
  | eflBaseWr : Writes s .eflBaseWr { s with base := baseMerge s.base (portA32 s) (portB32 s) }
  | dfWr {d : Bool} : Writes s (.dfWr d) { s with df := dfWord d }
  | cld : Writes s .cld { s with df := dfWord false }
  | std : Writes s .std { s with df := dfWord true }
  | fpuPush : Writes s .fpuPush s.push
  | fpuPop : Writes s .fpuPop s.pop
  | fpuWr {k : BitVec 3} : Writes s (.fpuWr k) (s.slotSet (stIndex s k) s.port.v)
  | fpuStWr : Writes s .fpuStWr (s.fpuLoadWord s.port.a)
  | fpuResetState {a : BitVec 64} (ha : a = 0xFF00) : Writes s .fpuResetState (s.fpuLoadWord a)
  | featLd (h : s.cfg.boundaryUnits = true) :
      Writes s .featLd { s with
        feat := s.port.a
        lma := s.port.a.getLsbD s.cfg.lmaBit.toNat
        svme := s.port.a.getLsbD s.cfg.svmeBit.toNat }
  | irqOr (h : s.cfg.boundaryUnits = true) : Writes s .irqOr { s with irq := s.irq ||| portA32 s }
  | irqClr (h : s.cfg.boundaryUnits = true) : Writes s .irqClr { s with irq := s.irq &&& ~~~portA32 s }
  | chkHalt (h : s.cfg.boundaryUnits = true) : Writes s .chkHalt { s with halted := false }
  | haltSet (h : s.cfg.boundaryUnits = true) : Writes s .haltSet { s with halted := true }
  | load {u u' : State} {ans : Answer} {a : Word} {n : Nat} {v : Option (BitVec 64)} (h : Writes s .fpuLd80 u)
      (hr : u.memRead ans a n = (u', v)) : Writes s .fpuLd80 u'
  | store {u u' : State} {ans : Answer} {a : Word} {n : Nat} {v : BitVec 64} {ok : Bool} (h : Writes s .fpuSt80 u)
      (hw : u.memWrite ans a n v = (u', ok)) : Writes s .fpuSt80 u'

/-- How the command `i`, run in `s`, can end (60_exceptions.md R221, R222): in a success after its writes, in a model fault
before any, or in a memory fault after the accesses issued so far. -/
inductive Ends (i : Instr) (s : State) : State → Prop where
  | done {u : State} (h : Writes s i u) : Ends i s u.done
  | driveOut {u : State} (h : Writes s i u) {v : BitVec 64} : Ends i s (u.driveOut v)
  | driveOut80 {u : State} (h : Writes s i u) {v : Slot} : Ends i s (u.driveOut80 v)
  | modelFault {f : ModelFault} : Ends i s (s.raise (.model f))
  | memFault {u : State} (hi : i = .fpuLd80 ∨ i = .fpuSt80) (h : Writes s i u) {a : Word} {n : Nat} {d : Dir} :
      Ends i s (u.raise (.memFault a n d))

/-- The result is a next state in which the command `i`, run in `s`, has ended. -/
def Concludes (i : Instr) (s : State) (r : Result) : Prop := ∃ t, r = .next t ∧ Ends i s t

section
variable {i : Instr} {s : State}

theorem Ends.concludes {t : State} (h : Ends i s t) : Concludes i s (.next t) := ⟨t, rfl, h⟩

theorem Concludes.ends {t : State} (h : Concludes i s (.next t)) : Ends i s t := by
  obtain ⟨t', ht, h'⟩ := h
  cases ht
  exact h'

theorem illegal_concludes : Concludes i s (.next s.illegal) := Ends.modelFault.concludes

theorem driveOut_concludes {v : BitVec 64} : Concludes i s (.next (s.driveOut v)) := (Ends.driveOut .none).concludes

theorem runTag_concludes {op : TagOp} : Concludes i s (runTag s op) := driveOut_concludes

/-- A command that may be illegal by a condition: it is enough to follow it where it is not. -/
theorem ite_illegal_concludes {c : Prop} [Decidable c] {r : Result} (h : ¬ c → Concludes i s r) :
    Concludes i s (if c then .next s.illegal else r) := by
  split
  · exact illegal_concludes
  · exact h ‹_›

theorem flagRead_concludes {v : BitVec 32} : Concludes i s (flagRead s v) := by
  obtain ⟨-, h⟩ | ⟨-, h⟩ := flagRead_cases s v
  · exact h ▸ Ends.modelFault.concludes
  · exact h ▸ driveOut_concludes

/-- A boundary command writes only where the units are present (30_encoding.md R80). -/
theorem onBoundary_concludes {r : Result} (h : s.cfg.boundaryUnits = true → Concludes i s r) :
    Concludes i s (onBoundary s r) := by
  cases hb : s.cfg.boundaryUnits with
  | true => rw [onBoundary_present hb]; exact h hb
  | false => rw [onBoundary_absent hb]; exact illegal_concludes

end

theorem execLocRd_concludes (r : BitVec 4) (s : State) : Concludes (.locRd r) s (execLocRd r s) :=
  ite_illegal_concludes fun _ => by
    split
    · exact Ends.modelFault.concludes
    · exact driveOut_concludes

theorem execSyncOut_concludes (s : State) : Concludes .syncOut s (execSyncOut s) := by
  obtain ⟨hu, h⟩ | ⟨r, -, h⟩ := execSyncOut_cases s
  · exact h ▸ (Ends.done (.syncOut hu)).concludes
  · exact h ▸ Ends.modelFault.concludes

theorem execCcRdRaw_concludes (sel : BitVec 2) (s : State) : Concludes (.ccRdRaw sel) s (execCcRdRaw sel s) := by
  unfold execCcRdRaw
  split_ifs
  · exact driveOut_concludes
  · exact driveOut_concludes
  · exact driveOut_concludes
  · exact illegal_concludes

theorem execFeatRd_concludes (sel : BitVec 2) (s : State) : Concludes (.featRd sel) s (execFeatRd sel s) :=
  onBoundary_concludes fun _ => by
    split_ifs
    · exact driveOut_concludes
    · exact driveOut_concludes
    · exact illegal_concludes

theorem execChkHalt_concludes (s : State) : Concludes .chkHalt s (execChkHalt s) :=
  onBoundary_concludes fun hb => by
    split_ifs
    · exact driveOut_concludes
    · exact (Ends.driveOut (.chkHalt hb)).concludes
    · exact driveOut_concludes

theorem execFpuLd80_concludes (s : State) : Concludes .fpuLd80 s (execFpuLd80 s) := by
  unfold execFpuLd80
  dsimp only
  split
  next h1 => exact (Ends.memFault (.inl rfl) (.load .none h1)).concludes
  next h1 =>
    split
    next h2 => exact (Ends.memFault (.inl rfl) (.load (.load .none h1) h2)).concludes
    next h2 => exact (Ends.driveOut80 (.load (.load .none h1) h2)).concludes

theorem execFpuSt80_concludes (s : State) : Concludes .fpuSt80 s (execFpuSt80 s) := by
  unfold execFpuSt80
  dsimp only
  split
  next h1 => exact (Ends.memFault (.inr rfl) (.store .none h1)).concludes
  next h1 =>
    split
    next h2 => exact (Ends.memFault (.inr rfl) (.store (.store .none h1) h2)).concludes
    next h2 => exact (Ends.done (.store (.store .none h1) h2)).concludes

/-- Every command has a next state, and this is what it did to reach it. -/
theorem exec_concludes (i : Instr) (s : State) : Concludes i s (exec i s) := by
  cases i with
  | nop => exact (Ends.done .none).concludes
  | gprRd r => exact ite_illegal_concludes fun _ => driveOut_concludes
  | gprWr r => exact ite_illegal_concludes fun h => (Ends.done (.gprWr (Nat.lt_of_not_le h))).concludes
  | locRd r => exact execLocRd_concludes r s
  | locWr r => exact ite_illegal_concludes fun h => (Ends.done (.locWr (by simpa using h))).concludes
  | syncIn => exact (Ends.done .syncIn).concludes
  | syncOut => exact execSyncOut_concludes s
  | ipRd | eflBaseRd | dfRd | fpuStRd => exact driveOut_concludes
  | ipWr => exact (Ends.done .ipWr).concludes
  | ccWr wt ws wd t => exact (Ends.done .ccWr).concludes
  | ccRdRaw sel => exact execCcRdRaw_concludes sel s
  | ccFlags | ccCarry | eflPack => exact flagRead_concludes
  | eflRestore => exact (Ends.done .eflRestore).concludes
  | eflRestoreD => exact (Ends.done .eflRestoreD).concludes
  | eflBaseWr => exact (Ends.done .eflBaseWr).concludes
  | dfWr d => exact (Ends.done .dfWr).concludes
  | fpuPush => exact (Ends.done .fpuPush).concludes
  | fpuPop => exact (Ends.done .fpuPop).concludes
  | fpuRd k => exact (Ends.driveOut80 .none).concludes
  | fpuWr k => exact (Ends.done .fpuWr).concludes
  | fpuStWr => exact (Ends.done .fpuStWr).concludes
  | fpuLd80 => exact execFpuLd80_concludes s
  | fpuSt80 => exact execFpuSt80_concludes s
  | featLd => exact onBoundary_concludes fun hb => (Ends.done (.featLd hb)).concludes
  | featRd sel => exact execFeatRd_concludes sel s
  | hasWork | irqRd => exact onBoundary_concludes fun _ => driveOut_concludes
  | chkHalt => exact execChkHalt_concludes s
  | irqOr => exact onBoundary_concludes fun hb => (Ends.done (.irqOr hb)).concludes
  | irqClr => exact onBoundary_concludes fun hb => (Ends.done (.irqClr hb)).concludes
  | haltSet => exact onBoundary_concludes fun hb => (Ends.done (.haltSet hb)).concludes
  | ccDirect => exact (Ends.done .ccDirect).concludes
  | cld => exact (Ends.done .cld).concludes
  | std => exact (Ends.done .std).concludes
  | fpuResetState => exact (Ends.done (.fpuResetState rfl)).concludes
  | tagDynamic | tagDirect | tagMulb | tagMulw | tagMull | tagMulq | tagAddb | tagAddw | tagAddl | tagAddq
  | tagAdcb | tagAdcw | tagAdcl | tagAdcq | tagSubb | tagSubw | tagSubl | tagSubq | tagSbbb | tagSbbw | tagSbbl
  | tagSbbq | tagLogicb | tagLogicw | tagLogicl | tagLogicq | tagIncb | tagIncw | tagIncl | tagIncq | tagDecb
  | tagDecw | tagDecl | tagDecq | tagShlb | tagShlw | tagShll | tagShlq | tagSarb | tagSarw | tagSarl
  | tagSarq => exact runTag_concludes

theorem exec_ends {i : Instr} {s t : State} (h : exec i s = .next t) : Ends i s t := (h ▸ exec_concludes i s).ends

end Sys2Proof.Machine

/-! PROOFS. The widths of the registers, the parameters and the absent boundary units: what every command and every step
keeps. -/

namespace Sys2Proof.Machine

/-! ### Register arrays -/

/-- What `fitsRegs` says of each entry. -/
theorem fitsRegs_iff {p : Params} {v : Vector Word 16} :
    fitsRegs p v = true ↔
      ∀ r : BitVec 4, fitsW p (v[r.toNat]'r.isLt) = true ∧ (nregs p ≤ r.toNat → v[r.toNat]'r.isLt = 0) := by
  simp only [fitsRegs, Bool.and_eq_true, List.all_eq_true, decide_eq_true_eq]
  constructor
  · rintro ⟨hw, hz⟩ r
    have hmem : v[r.toNat]'r.isLt ∈ v.toList := by simp
    refine ⟨hw _ hmem, fun hr => hz _ (List.mem_drop_iff_getElem.mpr ⟨r.toNat - nregs p, ?_, ?_⟩)⟩
    · have := r.isLt
      simp only [Vector.length_toList]
      omega
    · simp [Nat.add_sub_cancel' hr]
  · intro h
    have hk (k : Nat) (hk : k < 16) : fitsW p v[k] = true ∧ (nregs p ≤ k → v[k] = 0) := by
      simpa [Nat.mod_eq_of_lt hk] using h (BitVec.ofNat 4 k)
    constructor
    · intro x hx
      obtain ⟨k, hlt, rfl⟩ := List.mem_iff_getElem.mp hx
      exact (hk k (by simpa using hlt)).1
    · intro x hx
      obtain ⟨k, hlt, rfl⟩ := List.mem_drop_iff_getElem.mp hx
      exact (hk (nregs p + k) (by simpa [Nat.add_comm] using hlt)).2 (Nat.le_add_right _ _)

theorem fitsRegs_zero (p : Params) : fitsRegs p (Vector.replicate 16 0) = true := by
  simp [fitsRegs_iff]

theorem fitsRegs_set {p : Params} {v : Vector Word 16} {r : BitVec 4} {x : Word} (h : fitsRegs p v = true)
    (hr : r.toNat < nregs p) (hx : fitsW p x = true) : fitsRegs p (v.set r.toNat x r.isLt) = true := by
  rw [fitsRegs_iff] at h ⊢
  intro q
  by_cases hq : r.toNat = q.toNat
  · have habove : ¬ nregs p ≤ q.toNat := by omega
    simp [hq, hx, habove]
  · rw [Vector.getElem_set_ne _ _ hq]
    exact h q

theorem fitsRegs_copyBound {p : Params} {new old : Vector Word 16} (hn : fitsRegs p new = true)
    (ho : fitsRegs p old = true) : fitsRegs p (copyBound p new old) = true := by
  rw [fitsRegs_iff] at hn ho ⊢
  intro r
  rw [copyBound_get]
  split
  · exact hn r
  · exact ho r

theorem lt_nregs_of_isBound {p : Params} {r : BitVec 4} (h : isBound p r = true) : r.toNat < nregs p := by
  simp only [isBound, Bool.and_eq_true, decide_eq_true_eq] at h
  exact h.1

/-! ### The invariants, over the fields they speak of -/

/-- The registers of `State.widthsOk`, under the parameters `p`. -/
structure RegsFit (p : Params) (gpr loc : Vector Word 16) (lvalid : Vector Bool 16) (ip src dst : Word) : Prop where
  gpr : fitsRegs p gpr = true
  loc : fitsRegs p loc = true
  ip : fitsW p ip = true
  src : fitsW p src = true
  dst : fitsW p dst = true
  lvalid : ∀ r : BitVec 4, lvalid[r.toNat]'r.isLt = true → isBound p r = true

/-- What `State.widthsOk` says. -/
def State.Widths (s : State) : Prop := RegsFit s.cfg s.gpr s.loc s.lvalid s.ip s.src s.dst

theorem State.widthsOk_iff {s : State} : s.widthsOk = true ↔ s.Widths := by
  have hall : (((List.range 16).map (BitVec.ofNat 4)).all fun r => !s.locValid r || isBound s.cfg r) = true
      ↔ ∀ r : BitVec 4, s.lvalid[r.toNat]'r.isLt = true → isBound s.cfg r = true := by
    simp only [List.all_eq_true, List.mem_map, List.mem_range, Bool.or_eq_true, Bool.not_eq_true']
    constructor
    · intro h r hr
      obtain hf | hb := h r ⟨r.toNat, r.isLt, by simp⟩
      · exact absurd hr (by simpa [State.locValid] using hf)
      · exact hb
    · intro h r _
      cases hr : s.locValid r with
      | true => exact .inr (h r hr)
      | false => exact .inl rfl
  simp only [State.widthsOk, Bool.and_eq_true, hall]
  exact ⟨fun ⟨⟨⟨⟨⟨hg, hl⟩, hi⟩, hs⟩, hd⟩, hv⟩ => ⟨hg, hl, hi, hs, hd, hv⟩,
    fun ⟨hg, hl, hi, hs, hd, hv⟩ => ⟨⟨⟨⟨⟨hg, hl⟩, hi⟩, hs⟩, hd⟩, hv⟩⟩

theorem State.boundaryOk_iff {s : State} :
    s.boundaryOk = true ↔ s.cfg.boundaryUnits = true
      ∨ s.irq = 0 ∧ s.halted = false ∧ s.feat = 0 ∧ s.lma = false ∧ s.svme = false := by
  simp [State.boundaryOk, and_assoc]

section
variable {p : Params} {gpr loc : Vector Word 16} {lvalid : Vector Bool 16} {ip src dst : Word}

theorem RegsFit.atReset (h : p.legal = true) :
    RegsFit p p.resetGpr (Vector.replicate 16 0) (Vector.replicate 16 false) p.resetIp 0 0 := by
  simp only [Params.legal, Bool.and_eq_true] at h
  obtain ⟨⟨⟨⟨⟨⟨⟨⟨-, hgpr⟩, hip⟩, -⟩, -⟩, -⟩, -⟩, -⟩, -⟩ := h
  exact ⟨hgpr, fitsRegs_zero p, hip, fitsW_zero p, fitsW_zero p, fun r hr => by simp at hr⟩

theorem RegsFit.setGpr {r : BitVec 4} {v : Word} (h : RegsFit p gpr loc lvalid ip src dst) (hr : r.toNat < nregs p)
    (hv : fitsW p v = true) : RegsFit p (gpr.set r.toNat v r.isLt) loc lvalid ip src dst :=
  { h with gpr := fitsRegs_set h.gpr hr hv }

theorem RegsFit.setIp {v : Word} (h : RegsFit p gpr loc lvalid ip src dst) (hv : fitsW p v = true) :
    RegsFit p gpr loc lvalid v src dst :=
  { h with ip := hv }

theorem RegsFit.setSrc {v : Word} (h : RegsFit p gpr loc lvalid ip src dst) (hv : fitsW p v = true) :
    RegsFit p gpr loc lvalid ip v dst :=
  { h with src := hv }

/-- A bound register takes a W-bit value and becomes valid (40_register_file.md R104). -/
theorem RegsFit.locSet {r : BitVec 4} {v : Word} (h : RegsFit p gpr loc lvalid ip src dst)
    (hr : isBound p r = true) (hv : fitsW p v = true) :
    RegsFit p gpr (loc.set r.toNat v r.isLt) (lvalid.set r.toNat true r.isLt) ip src dst where
  __ := h
  loc := fitsRegs_set h.loc (lt_nregs_of_isBound hr) hv
  lvalid q hq := by
    by_cases hqr : r.toNat = q.toNat
    · exact BitVec.eq_of_toNat_eq hqr ▸ hr
    · rw [Vector.getElem_set_ne _ _ hqr] at hq
      exact h.lvalid q hq

/-- The mirror makes valid only what is bound (40_register_file.md R105). -/
theorem RegsFit.mirrorIn (h : RegsFit p gpr loc lvalid ip src dst) :
    RegsFit p gpr (copyBound p gpr loc) (copyBound p (Vector.replicate 16 true) lvalid) ip src dst where
  __ := h
  loc := fitsRegs_copyBound h.gpr h.loc
  lvalid r hr := by
    rw [copyBound_get] at hr
    split at hr
    · assumption
    · exact h.lvalid r hr

theorem RegsFit.mirrorOut (h : RegsFit p gpr loc lvalid ip src dst) :
    RegsFit p (copyBound p loc gpr) loc lvalid ip src dst :=
  { h with gpr := fitsRegs_copyBound h.loc h.gpr }

/-- The operands of a recorded operation are W-bit values (41_condition_codes.md R138). -/
theorem RegsFit.ccRecord {ws wd : Bool} {a b : Word} (h : RegsFit p gpr loc lvalid ip src dst)
    (ha : fitsW p a = true) (hb : fitsW p b = true) :
    RegsFit p gpr loc lvalid ip (if ws then a else src) (if wd then b else dst) where
  __ := h
  src := by
    split
    · exact ha
    · exact h.src
  dst := by
    split
    · exact hb
    · exact h.dst

end

/-! ### What commands keep -/

/-- A command's writes keep the parameters. -/
theorem Writes.cfg {i : Instr} {s u : State} (h : Writes s i u) : u.cfg = s.cfg := by
  induction h with
  | load _ hr ih => cases hr; simpa using ih
  | store _ hw ih => cases hw; simpa using ih
  | _ => simp

theorem Writes.widths {i : Instr} {s u : State} (h : Writes s i u) (hs : s.Widths) : u.Widths := by
  have ha : fitsW s.cfg (portA s) = true := fitsW_truncW s.cfg s.port.a
  have hb : fitsW s.cfg (portB s) = true := fitsW_truncW s.cfg s.port.b
  unfold State.Widths at hs ⊢
  induction h with
  | gprWr hr => simpa using hs.setGpr hr ha
  | locWr hr => simpa using hs.locSet hr ha
  | syncIn => simpa using hs.mirrorIn
  | syncOut => simpa using hs.mirrorOut
  | ipWr => simpa using hs.setIp ha
  | ccWr => simpa using hs.ccRecord ha hb
  | eflRestore | eflRestoreD => simpa using hs.setSrc (fitsW_of_32 s.cfg (portA32 s &&& ccMask))
  | load _ hr ih => cases hr; simpa using ih
  | store _ hw ih => cases hw; simpa using ih
  | _ => simpa using hs

/-- Where the boundary units are absent, a command writes nothing of theirs. -/
theorem Writes.boundaryOk {i : Instr} {s u : State} (h : Writes s i u) (hs : s.boundaryOk = true) :
    u.boundaryOk = true := by
  rw [State.boundaryOk_iff] at hs ⊢
  induction h with
  | featLd hb | irqOr hb | irqClr hb | chkHalt hb | haltSet hb => simp [hb]
  | load _ hr ih => cases hr; simpa using ih
  | store _ hw ih => cases hw; simpa using ih
  | _ => simpa using hs

/-- From `s` to `t` the parameters are the same, and the form of the registers and of the boundary fields is kept. -/
structure KeepsForm (s t : State) : Prop where
  cfg : t.cfg = s.cfg
  widths : s.Widths → t.Widths
  boundaryOk : s.boundaryOk = true → t.boundaryOk = true

/-- A fault on the port leaves the form as it was. -/
theorem keepsForm_raise (s : State) (f : PortFault) : KeepsForm s (s.raise f) :=
  ⟨by simp, fun hs => by simpa [State.Widths] using hs, fun hs => by simpa [State.boundaryOk_iff] using hs⟩

/-- The result ports are no part of the form. -/
theorem Ends.keepsForm {i : Instr} {s t : State} (h : Ends i s t) : KeepsForm s t := by
  cases h with
  | modelFault => exact keepsForm_raise s _
  | done hw | driveOut hw | driveOut80 hw | memFault _ hw =>
    exact ⟨by simpa using hw.cfg, fun hs => by simpa [State.Widths] using hw.widths hs,
      fun hs => by simpa [State.boundaryOk_iff] using hw.boundaryOk hs⟩

/-- Settles O60: a reset starts from legal parameters, and every other step keeps the form whatever they are. -/
theorem stepsKeepTheWidthsAndTheParameters : Obligations.StepsKeepTheWidthsAndTheParameters := by
  intro s t h
  simp only [State.widthsOk_iff]
  obtain ⟨-, rfl⟩ | ⟨a, b, rest, -, rfl⟩ | ⟨rest, -, rfl⟩ | ⟨c, rest, -, rfl | ⟨i, -, -, he⟩⟩ := step_cases h
  · exact ⟨rfl, fun _ => id, id⟩
  · exact ⟨rfl, fun _ hs => hs, fun hs => hs⟩
  · exact ⟨rfl, fun hl _ => .atReset hl, fun _ => by simp [State.boundaryOk_iff, State.resetAgain, State.atReset]⟩
  · obtain ⟨hcfg, hwidths, hboundary⟩ :=
      keepsForm_raise (State.present { s with inputs := rest } c) (.model (.illegalCmd c.cmd))
    exact ⟨hcfg, fun _ => hwidths, hboundary⟩
  · obtain ⟨hcfg, hwidths, hboundary⟩ := (exec_ends he).keepsForm
    exact ⟨hcfg, fun _ => hwidths, hboundary⟩

end Sys2Proof.Machine

/-! PROOFS. What writes each piece of state (10_state.md R37, R44): the table of writers, row by row, and the derived
mode flags, which follow from its row for the feature register. -/

namespace Sys2Proof.Machine

/-! ### The table of writers -/

/-- The table of 10_state.md R44: what the command `i` may have written on the way from `s` to `t`. -/
structure WritesOwn (i : Instr) (s t : State) : Prop where
  gpr : t.gpr = s.gpr ∨ i = .syncOut ∨ ∃ r, i = .gprWr r
  loc : (t.loc = s.loc ∧ t.lvalid = s.lvalid) ∨ i = .syncIn ∨ ∃ r, i = .locWr r
  ip : t.ip = s.ip ∨ i = .ipWr
  tag : t.tag = s.tag ∨ i = .eflRestoreD ∨ i = .ccDirect ∨ ∃ ws wd g, i = .ccWr true ws wd g
  src : t.src = s.src ∨ i = .eflRestore ∨ i = .eflRestoreD ∨ ∃ wt wd g, i = .ccWr wt true wd g
  dst : t.dst = s.dst ∨ ∃ wt ws g, i = .ccWr wt ws true g
  pending : t.restorePending = s.restorePending ∨ i = .eflRestore ∨ i = .eflRestoreD ∨ i = .ccDirect
    ∨ ∃ ws wd g, i = .ccWr true ws wd g
  base : t.base = s.base ∨ i = .eflRestore ∨ i = .eflRestoreD ∨ i = .eflBaseWr
  df : t.df = s.df ∨ i = .eflRestore ∨ i = .eflRestoreD ∨ i = .cld ∨ i = .std ∨ ∃ d, i = .dfWr d
  slots : t.slots = s.slots ∨ ∃ k, i = .fpuWr k
  stack : (t.top = s.top ∧ t.ftag = s.ftag) ∨ i = .fpuPush ∨ i = .fpuPop ∨ i = .fpuStWr ∨ i = .fpuResetState
  irq : t.irq = s.irq ∨ i = .irqOr ∨ i = .irqClr
  halted : t.halted = s.halted ∨ i = .haltSet ∨ i = .chkHalt
  modes : (t.feat = s.feat ∧ t.lma = s.lma ∧ t.svme = s.svme) ∨ i = .featLd
  cfg : t.cfg = s.cfg
  port : t.port = s.port
  inputs : t.inputs = s.inputs

/-- Writing nothing keeps to every row. -/
theorem WritesOwn.refl (i : Instr) (s : State) : WritesOwn i s s :=
  ⟨.inl rfl, .inl ⟨rfl, rfl⟩, .inl rfl, .inl rfl, .inl rfl, .inl rfl, .inl rfl, .inl rfl, .inl rfl, .inl rfl,
    .inl ⟨rfl, rfl⟩, .inl rfl, .inl rfl, .inl ⟨rfl, rfl, rfl⟩, rfl, rfl, rfl⟩

/-- Guest memory, its port, the result ports, the fault log and the counter have no row in the table. -/
theorem WritesOwn.ports {i : Instr} {s u : State} {log : List ModelFault} {mem : Memory} {reqs : List Request}
    {out : BitVec 64} {out80 : Slot} {fault : Option PortFault} {draws : Nat} (h : WritesOwn i s u) :
    WritesOwn i s { u with
      faultLog := log, mem := mem, memPort := reqs, out := out, out80 := out80, fault := fault, draws := draws } :=
  { h with }

/-- The array C, whatever it becomes, is the row of GPR_WR and SYNC_OUT. -/
theorem WritesOwn.setGpr {i : Instr} {s : State} {gpr : Vector Word 16} (hi : i = .syncOut ∨ ∃ r, i = .gprWr r) :
    WritesOwn i s { s with gpr := gpr } :=
  { WritesOwn.refl i s with gpr := .inr hi }

/-- The local registers, whatever they become, are the row of LOC_WR and SYNC_IN. -/
theorem WritesOwn.setLoc {i : Instr} {s : State} {loc : Vector Word 16} {lvalid : Vector Bool 16}
    (hi : i = .syncIn ∨ ∃ r, i = .locWr r) : WritesOwn i s { s with loc := loc, lvalid := lvalid } :=
  { WritesOwn.refl i s with loc := .inr hi }

/-- CC_WR writes what its enables name and nothing else (41_condition_codes.md R138). -/
theorem writesOwn_ccRecord (s : State) (wt ws wd : Bool) (g : BitVec 8) (a b : Word) :
    WritesOwn (.ccWr wt ws wd g) s (s.ccRecord wt ws wd g a b) where
  __ := WritesOwn.refl _ s
  tag := by cases wt <;> simp
  src := by cases ws <;> simp
  dst := by cases wd <;> simp
  pending := by cases wt <;> simp

/-- Each command's writes stand in the rows that name it. -/
theorem Writes.own {i : Instr} {s u : State} (h : Writes s i u) : WritesOwn i s u := by
  induction h with
  | none => exact .refl _ s
  | gprWr => exact .setGpr (.inr ⟨_, rfl⟩)
  | syncOut => exact .setGpr (.inl rfl)
  | locWr => exact .setLoc (.inr ⟨_, rfl⟩)
  | syncIn => exact .setLoc (.inl rfl)
  | ipWr => exact { WritesOwn.refl _ s with ip := by simp }
  | ccWr => exact writesOwn_ccRecord ..
  | ccDirect => exact { WritesOwn.refl _ s with tag := by simp, pending := by simp }
  | eflRestore | eflRestoreD =>
    exact { WritesOwn.refl _ s with
      tag := by simp, src := by simp, pending := by simp, base := by simp, df := by simp }
  | eflBaseWr => exact { WritesOwn.refl _ s with base := by simp }
  | dfWr | cld | std => exact { WritesOwn.refl _ s with df := by simp }
  | fpuWr => exact { WritesOwn.refl _ s with slots := by simp }
  | fpuPush | fpuPop | fpuStWr | fpuResetState => exact { WritesOwn.refl _ s with stack := by simp }
  | irqOr | irqClr => exact { WritesOwn.refl _ s with irq := by simp }
  | chkHalt | haltSet => exact { WritesOwn.refl _ s with halted := by simp }
  | featLd => exact { WritesOwn.refl _ s with modes := by simp }
  | load _ hr ih => cases hr; exact ih.ports
  | store _ hw ih => cases hw; exact ih.ports

theorem Ends.own {i : Instr} {s t : State} (h : Ends i s t) : WritesOwn i s t := by
  cases h with
  | modelFault => exact (WritesOwn.refl i s).ports
  | done hw | driveOut hw | driveOut80 hw | memFault _ hw => exact hw.own.ports

/-- Settles O55: the table holds of every way a command can end. -/
theorem eachCommandWritesOnlyItsOwnState : Obligations.EachCommandWritesOnlyItsOwnState := by
  intro i s t h
  obtain ⟨gpr, loc, ip, tag, src, dst, pending, base, df, slots, stack, irq, halted, modes, cfg, port, inputs⟩ :=
    (exec_ends h).own
  exact ⟨gpr, loc, ip, tag, src, dst, pending, base, df, slots, stack, irq, halted, modes, cfg, port, inputs⟩

/-! ### The derived mode flags -/

theorem State.modesOk_iff {s : State} :
    s.modesOk = true ↔ s.lma = s.feat.getLsbD s.cfg.lmaBit.toNat ∧ s.svme = s.feat.getLsbD s.cfg.svmeBit.toNat := by
  simp [State.modesOk]

/-- A command that is not FEAT_LD leaves the feature register and both flags; FEAT_LD derives the flags from what it
loads (60_exceptions.md R230). -/
theorem Writes.modesOk {i : Instr} {s u : State} (h : Writes s i u) (hs : s.modesOk = true) : u.modesOk = true := by
  rw [State.modesOk_iff] at hs ⊢
  obtain ⟨hfeat, hlma, hsvme⟩ | rfl := h.own.modes
  · simpa [hfeat, hlma, hsvme, h.cfg] using hs
  · cases h with
    | none => exact hs
    | featLd => exact ⟨rfl, rfl⟩

theorem modesOk_raise {s : State} {f : PortFault} (hs : s.modesOk = true) : (s.raise f).modesOk = true := by
  simpa [State.modesOk_iff] using hs

theorem Ends.modesOk {i : Instr} {s t : State} (h : Ends i s t) (hs : s.modesOk = true) : t.modesOk = true := by
  cases h with
  | modelFault => exact modesOk_raise hs
  | memFault _ hw => exact modesOk_raise (hw.modesOk hs)
  | done hw | driveOut hw | driveOut80 hw => simpa [State.modesOk_iff] using hw.modesOk hs

/-- At reset the feature register and both flags are 0 (10_state.md R45). -/
theorem modesOk_atReset (p : Params) : (State.atReset p).modesOk = true := by
  simp [State.modesOk_iff, State.atReset]

/-- Settles O58: reset has the flags derived, and so has every way a step can end. -/
theorem stepsKeepTheModeFlagsDerived : Obligations.StepsKeepTheModeFlagsDerived := by
  refine ⟨modesOk_atReset, fun s t hs h => ?_⟩
  obtain ⟨-, rfl⟩ | ⟨a, b, rest, -, rfl⟩ | ⟨rest, -, rfl⟩ | ⟨c, rest, -, rfl | ⟨i, -, -, he⟩⟩ := step_cases h
  · exact hs
  · exact hs
  · exact modesOk_atReset s.cfg
  · exact modesOk_raise hs
  · exact (exec_ends he).modesOk hs

end Sys2Proof.Machine

/-! PROOFS. The state after reset: its values (10_state.md R45), and that it meets every invariant. -/

namespace Sys2Proof.Machine

/-- The tag DIRECT reads the stored mask (41_condition_codes.md R125). -/
theorem ccAll_direct (p : Params) (src dst : Word) : ccAll p 1 src dst = src.setWidth 32 &&& ccMask := rfl

/-- The base word's constant bit is all that reset leaves set in EFLAGS (10_state.md R45). -/
theorem packEflags_atReset (p : Params) : packEflags (State.atReset p) = 0x00000002 := by
  simp only [packEflags, State.atReset, ccAll_direct]
  decide

/-- No restore is pending after reset, so EFL_PACK answers, whether or not the contract is strict. -/
theorem eflPack_atReset (p : Params) :
    Claims.answers (exec .eflPack (State.atReset p)) (State.atReset p) 0x00000002 := by
  obtain ⟨hbroken, -⟩ | ⟨-, h⟩ := flagRead_cases (State.atReset p) (packEflags (State.atReset p))
  · simp [State.contractBroken, State.atReset] at hbroken
  · exact ⟨_, h, rfl, rfl, by simp [packEflags_atReset]⟩

/-- Settles O1: each element by the definition of the reset state, an array element by element, and EFL_PACK by its own
lemma. -/
theorem resetLeavesTheSpecsValues : Obligations.ResetLeavesTheSpecsValues := by
  refine ⟨fun p => ⟨rfl, rfl, fun r => ?_, rfl, rfl, rfl, rfl, rfl, rfl, fun k => ?_, rfl, fun k hk => ?_, rfl, rfl, rfl,
    rfl, rfl, rfl, eflPack_atReset p⟩, fun r => ?_, rfl⟩
  · simp [State.locValid, State.atReset]
  · simp [State.slotGet, State.atReset]
  · exact BitVec.getLsbD_allOnes.trans (decide_eq_true hk)
  · simp [State.gprGet, State.reset, State.atReset, Params.default]

theorem baseOk_atReset (p : Params) : (State.atReset p).baseOk = true := by
  simp [State.baseOk, State.atReset, ownedMask, ccMask, dfMask]

theorem dfOk_atReset (p : Params) : (State.atReset p).dfOk = true := by
  simp [State.dfOk, State.atReset]

theorem memOk_atReset (p : Params) : (State.atReset p).memOk = true := rfl

theorem widthsOk_atReset {p : Params} (h : p.legal = true) : (State.atReset p).widthsOk = true :=
  State.widthsOk_iff.mpr (.atReset h)

theorem boundaryOk_atReset (p : Params) : (State.atReset p).boundaryOk = true :=
  State.boundaryOk_iff.mpr (.inr ⟨rfl, rfl, rfl, rfl, rfl⟩)

theorem inv_atReset {p : Params} (h : p.legal = true) : (State.atReset p).inv = true := by
  have hcfg : (State.atReset p).cfg.legal = true := h
  simp [State.inv, hcfg, baseOk_atReset p, dfOk_atReset p, modesOk_atReset p, memOk_atReset p, widthsOk_atReset h,
    boundaryOk_atReset p]

theorem legal_default : Params.default.legal = true := by decide

/-- Settles O3: each invariant holds at reset, and the default parameters are legal. -/
theorem resetMeetsEveryInvariant : Obligations.ResetMeetsEveryInvariant :=
  ⟨inv_atReset legal_default, fun _ => inv_atReset⟩

end Sys2Proof.Machine

/-! PROOFS. Guest memory (20_memory.md): that no step is stuck, that every step keeps its canonical form and its addresses
W-bit ones, and that only an 80-bit transfer touches it. -/

namespace Sys2Proof.Machine

open Sys2Proof.Claims

/-! ### Addresses -/

/-- Truncation to a W-bit word is reduction modulo 2^W (00_scope.md R12), in the statements' spelling of W. -/
theorem truncW_toNat_widthBits (p : Params) (v : Word) : (truncW p v).toNat = v.toNat % 2 ^ widthBits p := by
  rw [truncW_toNat, widthBits]
  cases p.w <;> rfl

/-- The bytes of the first access are the first of the transfer (20_memory.md R54). -/
theorem byteAddr_portAddr (s : State) (j : Nat) : byteAddr s.cfg (portAddr s) j = transferAddr s j := by
  rw [byteAddr_eq, transferAddr, widthBits]
  cases s.cfg.w <;> rfl

/-- The bytes of the second access follow those of the first, modulo 2^W (20_memory.md R56). -/
theorem byteAddr_secondAddr_transfer (s : State) (j : Nat) :
    byteAddr s.cfg (secondAddr s) j = transferAddr s (8 + j) := by
  rw [byteAddr_secondAddr, byteAddr_portAddr]

/-- An answer whose disturbance does not write an address spares it. -/
theorem spares_of_not_disturbs {p : Params} {ans : Answer} {q : Nat} (h : ¬ disturbs p ans q) :
    spares p ans.disturbance q :=
  fun e he hq => h ⟨e, he, hq⟩

/-! ### No step is stuck -/

/-- Every step has a next state: each way of taking an input has one, and so has every command (60_exceptions.md R221,
R222). -/
theorem step_total (s : State) : ∃ t, step s = .next t := by
  unfold step
  obtain ⟨-, hf⟩ | ⟨a, b, rest, -, hf⟩ | ⟨rest, -, hf⟩ | ⟨c, rest, -, hf⟩ := fetch_cases s <;> rw [hf]
  · exact ⟨_, rfl⟩
  · exact ⟨_, rfl⟩
  · exact ⟨_, rfl⟩
  · obtain hc | ⟨i, -, -, hc⟩ := fetchCommand_cases { s with inputs := rest } c <;> rw [hc]
    · exact ⟨_, rfl⟩
    · obtain ⟨t, ht, -⟩ := exec_concludes i (State.present { s with inputs := rest } c)
      exact ⟨t, ht⟩

theorem step_idle {s : State} (h : s.inputs = []) : step s = .next s := by
  simp [step, fetch, h]

theorem step_guestWrite {s : State} {a : Word} {b : Byte} {rest : List Event}
    (h : s.inputs = .guestWrite a b :: rest) :
    step s = .next (State.guestWrite { s with inputs := rest } a b) := by
  simp [step, fetch, h]

/-- Settles O6: no input is stuck, and another agent's write is one write of guest memory at the truncated address. -/
theorem everyStepHasANextState : Obligations.EveryStepHasANextState := by
  refine ⟨step_total, fun s => step_idle, fun s a b rest h hwf => ⟨_, step_guestWrite h, rfl, ?_⟩⟩
  rw [← truncW_toNat_widthBits s.cfg a]
  exact ⟨Memory.read_write_same _ b hwf, fun q hq => Memory.read_write_other b hq⟩

/-! ### The canonical form -/

theorem State.memOk_iff {s : State} : s.memOk = true ↔ Memory.ok s.cfg s.mem := by
  simp [State.memOk, Memory.ok]

theorem Writes.memOk {i : Instr} {s u : State} (h : Writes s i u) (hs : s.memOk = true) : u.memOk = true := by
  rw [State.memOk_iff] at hs ⊢
  induction h with
  | load _ hr ih =>
    cases hr
    exact readBytes_ok _ _ _ ih
  | store _ hw ih =>
    cases hw
    exact writeBytes_ok _ _ _ _ _ ih
  | _ => simpa using hs

theorem memOk_raise {s : State} {f : PortFault} (hs : s.memOk = true) : (s.raise f).memOk = true := by
  simpa [State.memOk_iff] using hs

theorem Ends.memOk {i : Instr} {s t : State} (h : Ends i s t) (hs : s.memOk = true) : t.memOk = true := by
  cases h with
  | modelFault => exact memOk_raise hs
  | memFault _ hw => exact memOk_raise (hw.memOk hs)
  | done hw | driveOut hw | driveOut80 hw => simpa [State.memOk_iff] using hw.memOk hs

/-- Settles O59: another agent's write and the writes of a command keep the form; a reset leaves guest memory as it was. -/
theorem stepsKeepGuestMemoryCanonical : Obligations.StepsKeepGuestMemoryCanonical := by
  intro s t hs h
  obtain ⟨-, rfl⟩ | ⟨a, b, rest, -, rfl⟩ | ⟨rest, -, rfl⟩ | ⟨c, rest, -, rfl | ⟨i, -, -, he⟩⟩ := step_cases h
  · exact hs
  · exact State.memOk_iff.mpr (Memory.ok_write a b (State.memOk_iff.mp hs))
  · exact hs
  · exact memOk_raise hs
  · exact (exec_ends he).memOk hs

/-! ### Only transfers touch guest memory -/

/-- The writes of a command that is no 80-bit transfer leave guest memory and the memory port (20_memory.md R55). -/
theorem Writes.mem_eq {i : Instr} {s u : State} (h : Writes s i u) (hld : i ≠ .fpuLd80) (hst : i ≠ .fpuSt80) :
    u.mem = s.mem ∧ u.memPort = s.memPort := by
  cases h with
  | load => exact absurd rfl hld
  | store => exact absurd rfl hst
  | _ => simp

theorem Ends.mem_eq {i : Instr} {s t : State} (h : Ends i s t) (hld : i ≠ .fpuLd80) (hst : i ≠ .fpuSt80) :
    t.mem = s.mem ∧ t.memPort = s.memPort := by
  cases h with
  | modelFault => simp
  | done hw | driveOut hw | driveOut80 hw | memFault _ hw => simpa using hw.mem_eq hld hst

/-- FPU_LD80 changes only what other agents write during its accesses (43_fpu_stack.md R196). -/
theorem execFpuLd80_read_other {s t : State} {q : Nat} (h : execFpuLd80 s = .next t)
    (h1 : spares s.cfg s.port.first.disturbance q) (h2 : spares s.cfg s.port.second.disturbance q) :
    Memory.read t.mem q = Memory.read s.mem q := by
  have hfirst := readBytes_other (portAddr s) 8 s.mem h1
  have hsecond := (readBytes_other (secondAddr s) 2 _ h2).trans hfirst
  obtain ⟨-, hr⟩ | ⟨-, -, hr⟩ | ⟨-, -, hr⟩ := execFpuLd80_cases s <;> cases h.symm.trans hr
  · exact hfirst
  · exact hsecond
  · exact hsecond

/-- FPU_ST80 changes only its own ten bytes and what other agents write during its accesses (43_fpu_stack.md R197,
R201). -/
theorem execFpuSt80_read_other {s t : State} {q : Nat} (h : execFpuSt80 s = .next t)
    (hq : ∀ j, j < 10 → q ≠ transferAddr s j) (h1 : spares s.cfg s.port.first.disturbance q)
    (h2 : spares s.cfg s.port.second.disturbance q) : Memory.read t.mem q = Memory.read s.mem q := by
  have hfirst (landed : BitVec 8) (lo : BitVec 64) :=
    writeBytes_other landed (portAddr s) lo 8 s.mem h1 fun j hj => byteAddr_portAddr s j ▸ hq j (by omega)
  have hsecond (landed : BitVec 8) (lo hi : BitVec 64) :=
    (writeBytes_other landed (secondAddr s) hi 2 _ h2 fun j hj =>
      byteAddr_secondAddr_transfer s j ▸ hq (8 + j) (by omega)).trans (hfirst (BitVec.allOnes 8) lo)
  obtain ⟨landed, -, hr⟩ | ⟨landed, -, -, hr⟩ | ⟨-, -, hr⟩ := execFpuSt80_cases s <;> cases h.symm.trans hr
  · exact hfirst landed _
  · exact hsecond landed _ _
  · exact hsecond (BitVec.allOnes 8) _ _

/-- Settles O49: the two transfers by what each leaves unchanged, every other command by the writes it makes. -/
theorem onlyTransfersTouchGuestMemory : Obligations.OnlyTransfersTouchGuestMemory := by
  refine fun i s t h _ => ⟨(exec_ends h).mem_eq, fun q hq h1 h2 => ?_⟩
  replace h1 := spares_of_not_disturbs h1
  replace h2 := spares_of_not_disturbs h2
  by_cases hld : i = .fpuLd80
  · subst hld
    exact execFpuLd80_read_other h h1 h2
  by_cases hst : i = .fpuSt80
  · subst hst
    exact execFpuSt80_read_other h (hq rfl) h1 h2
  · obtain ⟨hmem, -⟩ := (exec_ends h).mem_eq hld hst
    rw [hmem]

end Sys2Proof.Machine

/-! PROOFS. The encoding (30_encoding.md R72 to R76, R85): each format reads back the fields its words are made of, so that
decode and encode are inverse to each other. -/

namespace Sys2Proof

/-! ### The opcode of a word -/

theorem opcode_wordN (op : BitVec 6) : (wordN op).extractLsb' 26 6 = op := by
  unfold wordN
  rw [BitVec.extractLsb'_append_eq_left]

theorem opcode_wordR (op : BitVec 6) (r : BitVec 4) : (wordR op r).extractLsb' 26 6 = op := by
  unfold wordR
  repeat rw [BitVec.extractLsb'_append_eq_of_le (by decide)]
  simp

theorem opcode_wordS (op : BitVec 6) (i : BitVec 3) : (wordS op i).extractLsb' 26 6 = op := by
  unfold wordS
  repeat rw [BitVec.extractLsb'_append_eq_of_le (by decide)]
  simp

theorem opcode_wordC (op : BitVec 6) (wt ws wd : Bool) (t : BitVec 8) :
    (wordC op wt ws wd t).extractLsb' 26 6 = op := by
  unfold wordC
  repeat rw [BitVec.extractLsb'_append_eq_of_le (by decide)]
  simp

theorem opcode_wordK (op : BitVec 6) (sel : BitVec 2) : (wordK op sel).extractLsb' 26 6 = op := by
  unfold wordK
  repeat rw [BitVec.extractLsb'_append_eq_of_le (by decide)]
  simp

theorem opcode_wordD (op : BitVec 6) (d : Bool) : (wordD op d).extractLsb' 26 6 = op := by
  unfold wordD
  repeat rw [BitVec.extractLsb'_append_eq_of_le (by decide)]
  simp

/-! ### A format reads back its fields -/

theorem formatR_wordR (op : BitVec 6) (r : BitVec 4) (i : BitVec 4 → Instr) : formatR (wordR op r) i = .ok (i r) := by
  have hzero : (wordR op r).extractLsb' 0 22 = 0 := BitVec.extractLsb'_append_eq_right
  have hr : (wordR op r).extractLsb' 22 4 = r := by
    unfold wordR
    rw [BitVec.extractLsb'_append_eq_of_le (by decide), BitVec.extractLsb'_append_eq_right]
  rw [formatR, if_pos hzero, hr]

theorem formatS_wordS (op : BitVec 6) (k : BitVec 3) (i : BitVec 3 → Instr) : formatS (wordS op k) i = .ok (i k) := by
  have hzero : (wordS op k).extractLsb' 0 19 = 0 := BitVec.extractLsb'_append_eq_right
  have hk : (wordS op k).extractLsb' 19 3 = k := by
    unfold wordS
    rw [BitVec.extractLsb'_append_eq_of_le (by decide), BitVec.extractLsb'_append_eq_right]
  have hzero' : (wordS op k).extractLsb' 22 4 = 0 := by
    unfold wordS
    repeat rw [BitVec.extractLsb'_append_eq_of_le (by decide)]
    exact BitVec.extractLsb'_append_eq_right
  rw [formatS, if_pos ⟨hzero', hzero⟩, hk]

theorem formatC_wordC (op : BitVec 6) (wt ws wd : Bool) (t : BitVec 8) (i : Bool → Bool → Bool → BitVec 8 → Instr) :
    formatC (wordC op wt ws wd t) i = .ok (i wt ws wd t) := by
  have ht : (wordC op wt ws wd t).extractLsb' 0 8 = t := BitVec.extractLsb'_append_eq_right
  have hzero : (wordC op wt ws wd t).extractLsb' 8 8 = 0 := by
    unfold wordC
    rw [BitVec.extractLsb'_append_eq_of_le (by decide)]
    exact BitVec.extractLsb'_append_eq_right
  have hzero' : (wordC op wt ws wd t).extractLsb' 19 7 = 0 := by
    unfold wordC
    repeat rw [BitVec.extractLsb'_append_eq_of_le (by decide)]
    exact BitVec.extractLsb'_append_eq_right
  have hwe : (wordC op wt ws wd t).getLsbD 18 = wt ∧ (wordC op wt ws wd t).getLsbD 17 = ws
      ∧ (wordC op wt ws wd t).getLsbD 16 = wd := by
    unfold wordC
    repeat rw [BitVec.getLsbD_append]
    simp
  obtain ⟨hwt, hws, hwd⟩ := hwe
  rw [formatC, if_pos ⟨hzero', hzero⟩, hwt, hws, hwd, ht]

theorem formatK_wordK (op : BitVec 6) (sel : BitVec 2) (i : BitVec 2 → Instr) :
    formatK (wordK op sel) i = .ok (i sel) := by
  have hzero : (wordK op sel).extractLsb' 0 16 = 0 := BitVec.extractLsb'_append_eq_right
  have hsel : (wordK op sel).extractLsb' 16 2 = sel := by
    unfold wordK
    rw [BitVec.extractLsb'_append_eq_of_le (by decide), BitVec.extractLsb'_append_eq_right]
  have hzero' : (wordK op sel).extractLsb' 18 8 = 0 := by
    unfold wordK
    repeat rw [BitVec.extractLsb'_append_eq_of_le (by decide)]
    exact BitVec.extractLsb'_append_eq_right
  rw [formatK, if_pos ⟨hzero', hzero⟩, hsel]

theorem formatD_wordD (op : BitVec 6) (d : Bool) (i : Bool → Instr) : formatD (wordD op d) i = .ok (i d) := by
  have hzero : (wordD op d).extractLsb' 1 25 = 0 := by
    unfold wordD
    rw [BitVec.extractLsb'_append_eq_of_le (by decide)]
    exact BitVec.extractLsb'_append_eq_right
  have hd : (wordD op d).getLsbD 0 = d := by
    unfold wordD
    rw [BitVec.getLsbD_append]
    simp
  rw [formatD, if_pos hzero, hd]

/-! ### Decode of encode -/

theorem decodeCode_encode (i : Instr) : decodeCode (encode i) = .ok (expand i) := by
  cases i with
  | gprRd r | gprWr r | locRd r | locWr r =>
    simp [decodeCode, encode, expand, decode, opcode_wordR, formatR_wordR]
  | fpuRd k | fpuWr k => simp [decodeCode, encode, expand, decode, opcode_wordS, formatS_wordS]
  | ccWr wt ws wd t => simp [decodeCode, encode, expand, decode, opcode_wordC, formatC_wordC]
  | ccRdRaw sel | featRd sel => simp [decodeCode, encode, expand, decode, opcode_wordK, formatK_wordK]
  | dfWr d => simp [decodeCode, encode, expand, decode, opcode_wordD, formatD_wordD]
  | _ => rfl

theorem expand_eq_self {i : Instr} (hcc : i ≠ .ccDirect) (hcld : i ≠ .cld) (hstd : i ≠ .std)
    (hfpu : i ≠ .fpuResetState) : expand i = i := by
  cases i with
  | ccDirect => exact absurd rfl hcc
  | cld => exact absurd rfl hcld
  | std => exact absurd rfl hstd
  | fpuResetState => exact absurd rfl hfpu
  | _ => rfl

/-- Settles O8: each format reads back its fields, and a word or a tag without fields is decoded as it stands. -/
theorem encodedInstructionsDecodeBack : Obligations.EncodedInstructionsDecodeBack :=
  fun i => ⟨decodeCode_encode i, expand_eq_self⟩

/-! ### Encode of decode -/

/-- Whatever instruction the decoder's answer `r` to the word `w` is, its encoding is `w`. -/
def ReadsBack (w : BitVec 32) (r : Except DecodeError Instr) : Prop := ∀ i, r = .ok i → encode i = .command w

section
variable {w : BitVec 32} {op : BitVec 6}

theorem readsBack_formatN {i : Instr} (he : encode i = .command (wordN op)) (hop : w.extractLsb' 26 6 = op) :
    ReadsBack w (formatN w i) := by
  intro j h
  obtain ⟨hzero, rfl⟩ := formatN_ok h
  rw [he, wordN_of hop hzero]

theorem readsBack_formatR {i : BitVec 4 → Instr} (he : ∀ r, encode (i r) = .command (wordR op r))
    (hop : w.extractLsb' 26 6 = op) : ReadsBack w (formatR w i) := by
  intro j h
  obtain ⟨hzero, rfl⟩ := formatR_ok h
  rw [he, wordR_of hop hzero]

theorem readsBack_formatS {i : BitVec 3 → Instr} (he : ∀ k, encode (i k) = .command (wordS op k))
    (hop : w.extractLsb' 26 6 = op) : ReadsBack w (formatS w i) := by
  intro j h
  obtain ⟨hzero, rfl⟩ := formatS_ok h
  rw [he, wordS_of hop hzero]

theorem readsBack_formatC {i : Bool → Bool → Bool → BitVec 8 → Instr}
    (he : ∀ wt ws wd t, encode (i wt ws wd t) = .command (wordC op wt ws wd t)) (hop : w.extractLsb' 26 6 = op) :
    ReadsBack w (formatC w i) := by
  intro j h
  obtain ⟨hzero, rfl⟩ := formatC_ok h
  rw [he, wordC_of hop hzero]

theorem readsBack_formatK {i : BitVec 2 → Instr} (he : ∀ sel, encode (i sel) = .command (wordK op sel))
    (hop : w.extractLsb' 26 6 = op) : ReadsBack w (formatK w i) := by
  intro j h
  obtain ⟨hzero, rfl⟩ := formatK_ok h
  rw [he, wordK_of hop hzero]

theorem readsBack_formatD {i : Bool → Instr} (he : ∀ d, encode (i d) = .command (wordD op d))
    (hop : w.extractLsb' 26 6 = op) : ReadsBack w (formatD w i) := by
  intro j h
  obtain ⟨hzero, rfl⟩ := formatD_ok h
  rw [he, wordD_of hop hzero]

end

theorem readsBack_decode (w : BitVec 32) : ReadsBack w (decode w) := by
  unfold decode
  split
  case h_2 hop | h_3 hop | h_4 hop | h_5 hop =>
    exact readsBack_formatR (fun _ => rfl) (BitVec.eq_of_toNat_eq hop)
  case h_23 hop | h_24 hop => exact readsBack_formatS (fun _ => rfl) (BitVec.eq_of_toNat_eq hop)
  case h_10 hop => exact readsBack_formatC (fun _ _ _ _ => rfl) (BitVec.eq_of_toNat_eq hop)
  case h_11 hop | h_30 hop => exact readsBack_formatK (fun _ => rfl) (BitVec.eq_of_toNat_eq hop)
  case h_20 hop => exact readsBack_formatD (fun _ => rfl) (BitVec.eq_of_toNat_eq hop)
  case h_37 => exact fun i h => nomatch h
  all_goals exact readsBack_formatN rfl (BitVec.eq_of_toNat_eq ‹_›)

theorem encode_of_decode {w : BitVec 32} {i : Instr} (h : decode w = .ok i) : encode i = .command w :=
  readsBack_decode w i h

theorem encode_of_decodeTag {t : BitVec 8} {i : Instr} (h : decodeTag t = some i) : encode i = .tag t := by
  unfold decodeTag at h
  split at h
  case h_43 => cases h
  all_goals
    cases h
    exact congrArg Code.tag (BitVec.eq_of_toNat_eq (Eq.symm ‹_›))

theorem encode_of_decodeCode {c : Code} {i : Instr} (h : decodeCode c = .ok i) : encode i = c := by
  cases c with
  | command w => exact encode_of_decode h
  | tag t =>
    simp only [decodeCode] at h
    split at h
    · cases h
      exact encode_of_decodeTag ‹_›
    · cases h

/-- Settles O9: in each arm of either decoder the encoder builds the word back from the fields read. -/
theorem decodedCodesAreEncodings : Obligations.DecodedCodesAreEncodings :=
  fun _ _ => encode_of_decodeCode

/-- Settles O7: the decoder, run on each of the words. -/
theorem sampleWordsDecode : Obligations.SampleWordsDecode := by
  unfold Obligations.SampleWordsDecode
  decide

end Sys2Proof

/-! PROOFS. What a presented command word does (30_encoding.md R70, R78 to R81, R84, R85): it runs the instruction it decodes
to, or it is illegal. -/

namespace Sys2Proof.Machine

open Sys2Proof.Claims

/-! ### How a presented command runs, and how it is refused -/

theorem fetch_command {s : State} {c : Command} {rest : List Event} (hin : s.inputs = .command c :: rest) :
    fetch s = fetchCommand { s with inputs := rest } c := by
  simp [fetch, hin]

theorem step_runs {s : State} {c : Command} {rest : List Event} {i : Instr} (hin : s.inputs = .command c :: rest)
    (hd : decode c.cmd = .ok i) (hm : mayIssue c.agent i = true) : step s = exec i (presented s c rest) := by
  simp [step, fetch_command hin, fetchCommand, hd, hm, State.present, presented]

theorem endsInModelFault_illegal (s : State) :
    endsInModelFault (.next s.illegal) s (.illegalCmd s.port.cmd) :=
  ⟨_, rfl, rfl, rfl⟩

/-- A presented command is ILLEGAL_CMD where the instruction of its word would be: a word that decodes to none, or whose agent
may not issue it, is so anyway (30_encoding.md R78, R79; 60_exceptions.md R228). -/
theorem step_illegal {s : State} {c : Command} {rest : List Event} (hin : s.inputs = .command c :: rest)
    (hill : ∀ i, decode c.cmd = .ok i → exec i (presented s c rest) = .next (presented s c rest).illegal) :
    step s = .next (presented s c rest).illegal := by
  obtain hc | ⟨i, hd, -, hc⟩ := fetchCommand_cases { s with inputs := rest } c
  · rw [step, fetch_command hin, hc]
    rfl
  · rw [step, fetch_command hin, hc]
    exact hill i hd

/-- Settles O4: the owner may issue every command. -/
theorem stepRunsThePresentedCommand : Obligations.StepRunsThePresentedCommand :=
  fun _ c _ i hin hagent hd => step_runs hin hd (by rw [hagent]; rfl)

/-! ### Illegal words -/

theorem reserved_wordN (op : BitVec 6) : wordN op &&& 0x03FFFFFF = 0 := by
  change (op ++ 0#26) &&& (0#6 ++ BitVec.allOnes 26) = 0
  rw [BitVec.and_append]
  simp

theorem reserved_wordR (op : BitVec 6) (r : BitVec 4) : wordR op r &&& 0x003FFFFF = 0 := by
  change (op ++ r ++ 0#22) &&& (0#6 ++ 0#4 ++ BitVec.allOnes 22) = 0
  repeat rw [BitVec.and_append]
  simp

theorem reserved_wordS (op : BitVec 6) (k : BitVec 3) : wordS op k &&& 0x03C7FFFF = 0 := by
  change (op ++ 0#4 ++ k ++ 0#19) &&& (0#6 ++ BitVec.allOnes 4 ++ 0#3 ++ BitVec.allOnes 19) = 0
  repeat rw [BitVec.and_append]
  simp

theorem reserved_wordC (op : BitVec 6) (wt ws wd : Bool) (t : BitVec 8) : wordC op wt ws wd t &&& 0x03F8FF00 = 0 := by
  change (op ++ 0#7 ++ BitVec.ofBool wt ++ BitVec.ofBool ws ++ BitVec.ofBool wd ++ 0#8 ++ t)
    &&& (0#6 ++ BitVec.allOnes 7 ++ 0#1 ++ 0#1 ++ 0#1 ++ BitVec.allOnes 8 ++ 0#8) = 0
  repeat rw [BitVec.and_append]
  simp

theorem reserved_wordK (op : BitVec 6) (sel : BitVec 2) : wordK op sel &&& 0x03FCFFFF = 0 := by
  change (op ++ 0#8 ++ sel ++ 0#16) &&& (0#6 ++ BitVec.allOnes 8 ++ 0#2 ++ BitVec.allOnes 16) = 0
  repeat rw [BitVec.and_append]
  simp

theorem reserved_wordD (op : BitVec 6) (d : Bool) : wordD op d &&& 0x03FFFFFE = 0 := by
  change (op ++ 0#25 ++ BitVec.ofBool d) &&& (0#6 ++ BitVec.allOnes 25 ++ 0#1) = 0
  repeat rw [BitVec.and_append]
  simp

/-- What the word of an instruction owes to its opcode: it is an assigned one (30_encoding.md R79), every must-be-zero bit of
its format is 0 (R78), and the opcodes 0x30 to 0x37 are the boundary units' (R75). -/
def WordOf (i : Instr) (w : BitVec 32) : Prop :=
  ¬ unassigned (opOf w) ∧ w &&& mustBeZero (opOf w) = 0 ∧ (0x30 ≤ opOf w → opOf w ≤ 0x37 → i.isBoundary = true)

theorem wordOf_of_encode {i : Instr} {w : BitVec 32} (h : encode i = .command w) : WordOf i w := by
  unfold WordOf unassigned
  cases i with
  | gprRd r | gprWr r | locRd r | locWr r =>
    cases h
    rw [opOf, opcode_wordR]
    exact ⟨by decide, reserved_wordR _ r, fun hlo => absurd hlo (by decide)⟩
  | fpuRd k | fpuWr k =>
    cases h
    rw [opOf, opcode_wordS]
    exact ⟨by decide, reserved_wordS _ k, fun hlo => absurd hlo (by decide)⟩
  | ccWr wt ws wd t =>
    cases h
    rw [opOf, opcode_wordC]
    exact ⟨by decide, reserved_wordC _ wt ws wd t, fun hlo => absurd hlo (by decide)⟩
  | ccRdRaw sel =>
    cases h
    rw [opOf, opcode_wordK]
    exact ⟨by decide, reserved_wordK _ sel, fun hlo => absurd hlo (by decide)⟩
  | featRd sel =>
    cases h
    rw [opOf, opcode_wordK]
    exact ⟨by decide, reserved_wordK _ sel, fun _ _ => rfl⟩
  | dfWr d =>
    cases h
    rw [opOf, opcode_wordD]
    exact ⟨by decide, reserved_wordD _ d, fun hlo => absurd hlo (by decide)⟩
  | _ => cases h <;> decide

/-- Settles O10: a word that is no legal one decodes to nothing, for what it decoded to would have it as its encoding. -/
theorem unassignedOpcodesAndReservedBitsAreIllegal : Obligations.UnassignedOpcodesAndReservedBitsAreIllegal := by
  intro s c rest hin hbad
  have hstep : step s = .next (presented s c rest).illegal := step_illegal hin fun i hd => by
    obtain ⟨hop, hmask, -⟩ := wordOf_of_encode (encode_of_decode hd)
    exact absurd hbad (not_or.mpr ⟨hop, not_not.mpr hmask⟩)
  exact ⟨hstep ▸ endsInModelFault_illegal (presented s c rest), _, hstep, rfl⟩

/-! ### Illegal field values and absent units -/

/-- How a command that is legal when `b` holds, run in `s`, ends: in ILLEGAL_CMD where it does not, and never in ILLEGAL_CMD
where it does. -/
structure LegalWhen (b : Bool) (s : State) (r : Result) : Prop where
  illegal : b = false → r = .next s.illegal
  legal : b = true → ∀ t, r = .next t → ∀ c, t.fault ≠ some (.model (.illegalCmd c))

section
variable {b : Bool} {s t : State} {r : Result}

theorem LegalWhen.of_next (h : ∀ c, t.fault ≠ some (.model (.illegalCmd c))) : LegalWhen true s (.next t) where
  illegal hb := nomatch hb
  legal _ u hu := by cases hu; exact h

/-- A success. -/
theorem LegalWhen.success (h : t.fault = none) : LegalWhen true s (.next t) :=
  .of_next fun c => by simp [h]

theorem LegalWhen.never : LegalWhen false s (.next s.illegal) where
  illegal _ := rfl
  legal hb := nomatch hb

theorem LegalWhen.ite {c : Prop} [Decidable c] (hb : b = true ↔ ¬ c) (h : LegalWhen true s r) :
    LegalWhen b s (if c then .next s.illegal else r) := by
  by_cases hc : c
  · rw [if_pos hc, Bool.eq_false_of_not_eq_true fun hbt => hb.mp hbt hc]
    exact .never
  · rw [if_neg hc, hb.mpr hc]
    exact h

theorem legalWhen_onBoundary (h : LegalWhen b s r) : LegalWhen (s.cfg.boundaryUnits && b) s (onBoundary s r) := by
  cases hu : s.cfg.boundaryUnits with
  | true => rwa [onBoundary_present hu, Bool.true_and]
  | false => rw [onBoundary_absent hu]; exact .never

theorem legalWhen_present (h : LegalWhen true s r) : LegalWhen s.cfg.boundaryUnits s (onBoundary s r) := by
  simpa using legalWhen_onBoundary h

theorem legalWhen_flagRead {v : BitVec 32} : LegalWhen true s (flagRead s v) := by
  obtain ⟨-, h⟩ | ⟨-, h⟩ := flagRead_cases s v
  · exact h ▸ .of_next (by simp)
  · exact h ▸ .success rfl

end

theorem legalWhen_locRd (r : BitVec 4) (s : State) : LegalWhen (isBound s.cfg r) s (execLocRd r s) := by
  refine .ite (by simp) ?_
  split
  · exact .of_next (by simp)
  · exact .success rfl

theorem legalWhen_syncOut (s : State) : LegalWhen true s (execSyncOut s) := by
  obtain ⟨-, h⟩ | ⟨r, -, h⟩ := execSyncOut_cases s
  · exact h ▸ .success rfl
  · exact h ▸ .of_next (by simp)

theorem legalWhen_ccRdRaw (sel : BitVec 2) (s : State) : LegalWhen (decide (sel ≠ 3)) s (execCcRdRaw sel s) := by
  match sel with
  | 0 | 1 | 2 => exact .success rfl
  | 3 => exact .never

theorem legalWhen_featRd (sel : BitVec 2) (s : State) :
    LegalWhen (s.cfg.boundaryUnits && decide (sel.toNat < 2)) s (execFeatRd sel s) := by
  refine legalWhen_onBoundary ?_
  match sel with
  | 0 | 1 => exact .success rfl
  | 2 | 3 => exact .never

theorem legalWhen_chkHalt (s : State) : LegalWhen s.cfg.boundaryUnits s (execChkHalt s) := by
  refine legalWhen_present ?_
  split_ifs <;> exact .success rfl

theorem legalWhen_fpuLd80 (s : State) : LegalWhen true s (execFpuLd80 s) := by
  obtain ⟨-, h⟩ | ⟨-, -, h⟩ | ⟨-, -, h⟩ := execFpuLd80_cases s
  · exact h ▸ .of_next (by simp)
  · exact h ▸ .of_next (by simp)
  · exact h ▸ .success rfl

theorem legalWhen_fpuSt80 (s : State) : LegalWhen true s (execFpuSt80 s) := by
  obtain ⟨_, -, h⟩ | ⟨_, -, -, h⟩ | ⟨-, -, h⟩ := execFpuSt80_cases s
  · exact h ▸ .of_next (by simp)
  · exact h ▸ .of_next (by simp)
  · exact h ▸ .success rfl

theorem legalWhen_wellFormed (i : Instr) (s : State) : LegalWhen (i.wellFormed s.cfg) s (exec i s) := by
  cases i with
  | gprRd r => exact .ite (by simp [Instr.wellFormed]) (.success rfl)
  | gprWr r => exact .ite (by simp [Instr.wellFormed]) (.success rfl)
  | locRd r => exact legalWhen_locRd r s
  | locWr r => exact .ite (by simp [Instr.wellFormed]) (.success rfl)
  | syncOut => exact legalWhen_syncOut s
  | ccRdRaw sel => exact legalWhen_ccRdRaw sel s
  | ccFlags | ccCarry | eflPack => exact legalWhen_flagRead
  | fpuLd80 => exact legalWhen_fpuLd80 s
  | fpuSt80 => exact legalWhen_fpuSt80 s
  | featRd sel => exact legalWhen_featRd sel s
  | chkHalt => exact legalWhen_chkHalt s
  | featLd | hasWork | irqOr | irqClr | irqRd | haltSet => exact legalWhen_present (.success rfl)
  | _ => exact .success rfl

theorem exec_illegal {i : Instr} {s : State} (h : i.wellFormed s.cfg = false) : exec i s = .next s.illegal :=
  (legalWhen_wellFormed i s).illegal h

theorem endsInModelFault_of_illFormed {i : Instr} {s : State} (h : i.wellFormed s.cfg = false) :
    endsInModelFault (exec i s) s (.illegalCmd s.port.cmd) :=
  exec_illegal h ▸ endsInModelFault_illegal s

/-- Settles O13: each instruction is legal exactly when it is well-formed. -/
theorem onlyIllFormedCommandsAreIllegal : Obligations.OnlyIllFormedCommandsAreIllegal :=
  fun i s => ⟨endsInModelFault_of_illFormed, (legalWhen_wellFormed i s).legal⟩

/-- Settles O12: the listed field values are ill-formed, and CC_WR without an enable writes nothing. -/
theorem illegalFieldValuesFault : Obligations.IllegalFieldValuesFault := by
  intro s
  refine ⟨fun r hr => ?_, fun r hr => ?_, ?_, ?_, ?_, fun wt ws wd g => ⟨_, rfl, rfl⟩, fun g => ⟨_, rfl, rfl, rfl⟩⟩
  · have hill : decide (r.toNat < nregs s.cfg) = false := decide_eq_false (Nat.not_lt.mpr hr)
    exact ⟨endsInModelFault_of_illFormed hill, endsInModelFault_of_illFormed hill⟩
  · exact ⟨endsInModelFault_of_illFormed hr, endsInModelFault_of_illFormed hr⟩
  · exact endsInModelFault_of_illFormed rfl
  · exact endsInModelFault_of_illFormed (Bool.and_false _)
  · exact endsInModelFault_of_illFormed (Bool.and_false _)

theorem wellFormed_of_isBoundary {i : Instr} {p : Params} (h : i.isBoundary = true) (hp : p.boundaryUnits = false) :
    i.wellFormed p = false := by
  cases i with
  | featLd | hasWork | chkHalt | irqOr | irqClr | irqRd | haltSet => exact hp
  | featRd sel => simp [Instr.wellFormed, hp]
  | _ => cases h

/-- Settles O11: a word of these opcodes is none, or it decodes to an instruction of the absent units. -/
theorem absentBoundaryUnitsAreIllegal : Obligations.AbsentBoundaryUnitsAreIllegal := by
  intro s c rest hin hcfg hlo hhi
  have hstep : step s = .next (presented s c rest).illegal := step_illegal hin fun i hd => by
    obtain ⟨-, -, hboundary⟩ := wordOf_of_encode (encode_of_decode hd)
    exact exec_illegal (wellFormed_of_isBoundary (hboundary hlo hhi) hcfg)
  exact hstep ▸ endsInModelFault_illegal (presented s c rest)

/-! ### Instructions placed by withFetchWord -/

/-- The instruction of a tag drives `out` with the mask of that tag (41_condition_codes.md R121). -/
theorem exec_of_decodeTag {g : BitVec 8} {i : Instr} (h : decodeTag g = some i) (s : State) :
    exec i s = .next (s.driveOut ((ccAll s.cfg g s.src s.dst).setWidth 64)) := by
  have he := encode_of_decodeTag h
  cases i with
  | _ => cases he <;> rfl

theorem decode_of_decodeTableWord {w : BitVec 32} {i : Instr} (h : decodeTableWord 32 w.toNat = some i) :
    decode w = .ok i := by
  have hd : (decode w).toOption = some i := by simpa [decodeTableWord] using h
  cases hw : decode w with
  | ok j => rw [hw] at hd; cases hd; rfl
  | error e => rw [hw] at hd; cases hd

theorem decodeTag_of_decodeTableWord {g : BitVec 8} {i : Instr} (h : decodeTableWord 8 g.toNat = some i) :
    decodeTag g = some i := by
  simpa [decodeTableWord] using h

/-- With no restore pending CC_FLAGS runs the instruction of the tag in the register `tag` (41_condition_codes.md R140). -/
theorem exec_ccFlags_of_decodeTag {s : State} {i : Instr} (h : decodeTag s.tag = some i)
    (hp : s.restorePending = false) : exec .ccFlags s = exec i s := by
  rw [exec_of_decodeTag h]
  obtain ⟨hbroken, -⟩ | ⟨-, hread⟩ := flagRead_cases s (ccAll s.cfg s.tag s.src s.dst)
  · simp [State.contractBroken, hp] at hbroken
  · exact hread

/-- Settles O5: a command row is presented next as it stands, and a tag row is what CC_FLAGS runs. -/
theorem placedInstructionRunsNext : Obligations.PlacedInstructionRunsNext := by
  refine ⟨fun s w i h => ?_, fun s g i h => ?_⟩
  · have hin : (s.withFetchWord 32 w.toNat).inputs = .command (.ofWord w) :: s.inputs := by
      simp [State.withFetchWord, placeNext]
    exact step_runs hin (decode_of_decodeTableWord h) rfl
  · have hin : (s.withFetchWord 8 g.toNat).inputs = .command (.ofWord ccFlagsWord) :: s.inputs := rfl
    have hplaced : presented (s.withFetchWord 8 g.toNat) (.ofWord ccFlagsWord) s.inputs
        = presented { s with tag := g, restorePending := false } (.ofWord ccFlagsWord) s.inputs := by
      simp [State.withFetchWord, placeNext, presented]
    rw [step_runs hin rfl rfl, hplaced]
    exact exec_ccFlags_of_decodeTag (decodeTag_of_decodeTableWord h) rfl

/-! ### Pseudo-commands and the assembler -/

/-- A pseudo-command has the effect of its expansion; FPU_RESET_STATE on its own port `a` (30_encoding.md R85). -/
theorem exec_expand {i : Instr} {s : State} (ha : i = .fpuResetState → s.port.a = 0xFF00) :
    exec (expand i) s = exec i s := by
  cases i with
  | fpuResetState =>
    simp only [expand, exec, execFpuStWr, execFpuResetState, ha rfl]
  | _ => rfl

/-- What a line assembles to: a command of the owner whose word decodes to the expansion of the instruction the line spells. -/
theorem assemble_some {l : AsmLine} {i : Instr} {c : Command} (hi : asmInstr l = some i) (hc : assemble l = some c) :
    decode c.cmd = .ok (expand i) ∧ c.agent = .owner ∧ (i = .fpuResetState → c.a = 0xFF00) := by
  have hd := decodeCode_encode i
  rw [assemble, hi, Option.bind_some, asmCommand] at hc
  cases he : encode i with
  | command w =>
    rw [he] at hc hd
    cases hc
    exact ⟨hd, rfl, fun h => if_pos h⟩
  | tag t =>
    rw [he] at hc
    cases hc

/-- Settles O54: the words by evaluating the assembler, and any line by the round trip of its word. -/
theorem pseudoCommandsAreTheirExpansions : Obligations.PseudoCommandsAreTheirExpansions := by
  refine fun s => ⟨by decide, rfl, rfl, rfl, (exec_expand fun _ => rfl).symm, ⟨_, rfl, rfl, rfl⟩,
    fun l i c rest hi hc hin => ?_⟩
  obtain ⟨hd, hagent, ha⟩ := assemble_some hi hc
  rw [step_runs hin hd (by rw [hagent]; rfl)]
  exact exec_expand ha

end Sys2Proof.Machine

/-! PROOFS. The register file and its mirror (40_register_file.md): what a register reads after each write of the two arrays,
the outcome of each command where it is legal, and the laws of the mirror, which compose these outcomes. -/

namespace Sys2Proof.Machine

open Sys2Proof.Claims

/-! ### Reading a register after a command's writes -/

@[simp] theorem State.gprGet_done (s : State) (r : BitVec 4) : s.done.gprGet r = s.gprGet r := rfl
@[simp] theorem State.locGet_done (s : State) (r : BitVec 4) : s.done.locGet r = s.locGet r := rfl
@[simp] theorem State.locValid_done (s : State) (r : BitVec 4) : s.done.locValid r = s.locValid r := rfl

theorem State.locGet_mirrorIn (s : State) (r : BitVec 4) :
    s.mirrorIn.locGet r = if isBound s.cfg r then s.gprGet r else s.locGet r :=
  copyBound_get s.cfg s.gpr s.loc r

theorem State.locValid_mirrorIn (s : State) (r : BitVec 4) :
    s.mirrorIn.locValid r = if isBound s.cfg r then true else s.locValid r := by
  simpa [State.locValid] using copyBound_get s.cfg (Vector.replicate 16 true) s.lvalid r

theorem State.gprGet_mirrorOut (s : State) (r : BitVec 4) :
    s.mirrorOut.gprGet r = if isBound s.cfg r then s.locGet r else s.gprGet r :=
  copyBound_get s.cfg s.loc s.gpr r

/-- Copying the bound entries out to another array and back changes nothing (40_register_file.md R109). -/
theorem copyBound_copyBound {α : Type} (p : Params) (v old : Vector α 16) : copyBound p (copyBound p v old) v = v := by
  ext i hi
  cases h : isBound p (BitVec.ofFin ⟨i, hi⟩) <;> simp [copyBound, h]

theorem State.unwritten_eq_nil_iff {s : State} :
    s.unwritten = [] ↔ ∀ r, isBound s.cfg r = true → s.locValid r = true := by
  simp [List.eq_nil_iff_forall_not_mem, State.mem_unwritten]

/-! ### The port written, and how a command ends -/

/-- What a command writes of its port `a` into a register (30_encoding.md R74). -/
theorem portA_toNat (s : State) : (portA s).toNat = s.port.a.toNat % 2 ^ widthBits s.cfg :=
  truncW_toNat_widthBits s.cfg s.port.a

theorem endsInModelFault_raise (s : State) (f : ModelFault) :
    endsInModelFault (.next (s.raise (.model f))) s f :=
  ⟨_, rfl, rfl, rfl⟩

theorem answers_driveOut (s : State) (v : BitVec 64) : answers (.next (s.driveOut v)) s v :=
  ⟨_, rfl, rfl, rfl, rfl⟩

/-! ### The outcome of each command -/

theorem exec_syncIn (s : State) : exec .syncIn s = .next s.mirrorIn.done := rfl

section
variable {s : State} {r : BitVec 4}

theorem exec_gprRd (h : r.toNat < nregs s.cfg) : exec (.gprRd r) s = .next (s.driveOut (s.gprGet r)) :=
  if_neg (Nat.not_le.mpr h)

theorem exec_gprWr (h : r.toNat < nregs s.cfg) : exec (.gprWr r) s = .next (s.gprSet r (portA s)).done :=
  if_neg (Nat.not_le.mpr h)

theorem exec_locRd_written (hb : isBound s.cfg r = true) (hv : s.locValid r = true) :
    exec (.locRd r) s = .next (s.driveOut (s.locGet r)) := by
  simp [exec, execLocRd, hb, hv]

theorem exec_locRd_unwritten (hb : isBound s.cfg r = true) (hv : s.locValid r = false) :
    exec (.locRd r) s = .next (s.raise (.model (.unwrittenLocal r.toNat))) := by
  simp [exec, execLocRd, hb, hv]

theorem exec_locWr (h : isBound s.cfg r = true) : exec (.locWr r) s = .next (s.locSet r (portA s)).done := by
  simp [exec, execLocWr, h]

/-- With every bound register written SYNC_OUT has nothing to name (40_register_file.md R106). -/
theorem exec_syncOut_written (h : ∀ r, isBound s.cfg r = true → s.locValid r = true) :
    exec .syncOut s = .next s.mirrorOut.done := by
  obtain ⟨-, hcopy⟩ | ⟨r, hr, -⟩ := execSyncOut_cases s
  · exact hcopy
  · simp [State.unwritten_eq_nil_iff.mpr h] at hr

/-- With a bound register unwritten SYNC_OUT cannot copy (40_register_file.md R106). -/
theorem exec_syncOut_unwritten (h : ∃ r, isBound s.cfg r = true ∧ s.locValid r = false) :
    ∃ r, (isBound s.cfg r = true ∧ s.locValid r = false)
      ∧ exec .syncOut s = .next (s.raise (.model (.unwrittenLocal r.toNat))) := by
  obtain ⟨hnil, -⟩ | ⟨r, hr, hfault⟩ := execSyncOut_cases s
  · obtain ⟨q, hq, hv⟩ := h
    simp [State.unwritten_eq_nil_iff.mp hnil q hq] at hv
  · exact ⟨r, (s.mem_unwritten r).mp hr, hfault⟩

end

/-! ### The commands, with their frames -/

/-- Settles O15: a register that exists is read and set. -/
theorem generalRegistersReadAndWrite : Obligations.GeneralRegistersReadAndWrite := by
  intro s r hr
  refine ⟨exec_gprRd hr ▸ answers_driveOut s _, _, exec_gprWr hr, rfl, ?_, fun q hq => ?_, rfl⟩
  · simp [portA_toNat]
  · exact s.gprGet_gprSet_ne (portA s) hq

/-- Settles O16: a bound register is read by whether it was written, and set. -/
theorem localRegistersReadAndWrite : Obligations.LocalRegistersReadAndWrite := by
  intro s r hb
  refine ⟨fun hv => exec_locRd_written hb hv ▸ answers_driveOut s _,
    fun hv => exec_locRd_unwritten hb hv ▸ endsInModelFault_raise s _, _, exec_locWr hb, rfl, ?_, ?_, fun q hq => ?_, rfl⟩
  · simp [portA_toNat]
  · simp
  · exact ⟨s.locGet_locSet_ne (portA s) hq, s.locValid_locSet_ne (portA s) hq⟩

/-- Settles O17: the copy inward, entry by entry. -/
theorem syncInCopiesTheBoundRegisters : Obligations.SyncInCopiesTheBoundRegisters := by
  intro s
  refine ⟨_, exec_syncIn s, rfl, fun r hr => ?_, fun r hr => ?_, ?_⟩
  · simp [State.locGet_mirrorIn, State.locValid_mirrorIn, hr]
  · simp [State.locGet_mirrorIn, State.locValid_mirrorIn, hr]
  · simp [State.settled]

/-- Settles O18: SYNC_OUT copies when no bound register is unwritten, and names one of the unwritten when some is. -/
theorem syncOutCopiesOrNamesAnUnwrittenRegister : Obligations.SyncOutCopiesOrNamesAnUnwrittenRegister := by
  intro s
  constructor
  · intro hwritten
    refine ⟨_, exec_syncOut_written hwritten, rfl, fun r hr => ?_, fun r hr => ?_, ?_⟩
    · simp [State.gprGet_mirrorOut, hr]
    · simp [State.gprGet_mirrorOut, hr]
    · simp [State.settled]
  · intro hunwritten
    obtain ⟨r, ⟨hb, hv⟩, hfault⟩ := exec_syncOut_unwritten hunwritten
    exact ⟨r, hb, hv, hfault ▸ endsInModelFault_raise s _⟩

/-- Settles O19: each by its definition, and the value of IP_WR by that of its port. -/
theorem nopAndInstructionPointer : Obligations.NopAndInstructionPointer :=
  fun s => ⟨⟨_, rfl, rfl, rfl⟩, answers_driveOut s s.ip, _, rfl, rfl, portA_toNat s, rfl⟩

/-! ### The laws of the mirror -/

theorem runAll_pair {i j : Instr} {s t : State} (h : exec i s = .next t) : runAll [i, j] s = exec j t := by
  simp only [runAll, h]
  cases exec j t <;> rfl

/-- SYNC_IN leaves every bound register written, so that a SYNC_OUT after it copies back what it copied. -/
theorem runAll_syncIn_syncOut (s : State) : runAll [.syncIn, .syncOut] s = .next s.mirrorIn.done.mirrorOut.done := by
  rw [runAll_pair (exec_syncIn s)]
  refine exec_syncOut_written fun r hr => ?_
  rw [State.done_cfg, State.mirrorIn_cfg] at hr
  simp [State.locValid_mirrorIn, hr]

/-- LOC_WR writes the one bound register that may be unwritten before it. -/
theorem runAll_locWr_syncOut {s : State} {r : BitVec 4} (hr : isBound s.cfg r = true)
    (hothers : ∀ q, isBound s.cfg q = true → q ≠ r → s.locValid q = true) :
    runAll [.locWr r, .syncOut] s = .next (s.locSet r (portA s)).done.mirrorOut.done := by
  rw [runAll_pair (exec_locWr hr)]
  refine exec_syncOut_written fun q hq => ?_
  by_cases hqr : q = r
  · simp [hqr]
  · exact (s.locValid_locSet_ne (portA s) hqr).trans (hothers q hq hqr)

theorem runAll_gprWr_syncIn {s : State} {r : BitVec 4} (hr : r.toNat < nregs s.cfg) :
    runAll [.gprWr r, .syncIn] s = .next (s.gprSet r (portA s)).done.mirrorIn.done := by
  rw [runAll_pair (exec_gprWr hr), exec_syncIn]

/-- Settles O20: each pair of commands by its outcome, read at the register. -/
theorem mirrorKeepsValues : Obligations.MirrorKeepsValues := by
  refine fun s => ⟨⟨_, runAll_syncIn_syncOut s, rfl, ?_⟩,
    fun r hr hothers => ⟨_, runAll_locWr_syncOut hr hothers, rfl, ?_⟩,
    fun r hr => ⟨_, runAll_gprWr_syncIn (lt_nregs_of_isBound hr), rfl, ?_⟩⟩
  · simp [copyBound_copyBound]
  · simp [State.gprGet_mirrorOut, hr, portA]
  · simp [State.locGet_mirrorIn, hr, portA]

end Sys2Proof.Machine

/-! PROOFS. The condition-code engine (41_condition_codes.md): how a flag read ends under the restore contract, which
mask each tag gives, and that each family's mask follows its rule, from which the sum, difference and shift flags are
read. -/

namespace Sys2Proof.Machine

open Sys2Proof.Claims

/-! ### The restore contract -/

theorem contractBroken_of_readable {s : State} (h : flagsReadable s) : s.contractBroken = false := by
  obtain hstrict | hpending := h
  · simp [State.contractBroken, hstrict]
  · simp [State.contractBroken, hpending]

theorem flagRead_readable {s : State} (h : flagsReadable s) (v : BitVec 32) :
    flagRead s v = .next (s.driveOut (v.setWidth 64)) := by
  simp [flagRead, contractBroken_of_readable h]

theorem answers_flagRead {s : State} (h : flagsReadable s) (v : BitVec 32) :
    answers (flagRead s v) s (v.setWidth 64) :=
  flagRead_readable h v ▸ answers_driveOut s _

/-- A broken contract stops every flag read, whatever value it would have answered (41_condition_codes.md R142). -/
theorem endsInModelFault_flagRead {s : State} (hstrict : s.cfg.strictRestore = true)
    (hpending : s.restorePending = true) (v : BitVec 32) : endsInModelFault (flagRead s v) s .restoreContract := by
  have hfault : flagRead s v = .next (s.raise (.model .restoreContract)) := by
    simp [flagRead, State.contractBroken, hstrict, hpending]
  exact hfault ▸ endsInModelFault_raise s _

theorem exec_ccFlags (s : State) : exec .ccFlags s = flagRead s (ccAll s.cfg s.tag s.src s.dst) := rfl

theorem exec_ccCarry (s : State) : exec .ccCarry s = flagRead s (ccC s.cfg s.tag s.src s.dst) := rfl

/-- Settles O21: each command ends as its definition says. -/
theorem deferredStateWritesAndReads : Obligations.DeferredStateWritesAndReads :=
  fun s => ⟨fun _ _ _ _ => ⟨_, rfl, rfl, rfl⟩, answers_driveOut s _, answers_driveOut s _, answers_driveOut s _⟩

/-- Settles O22: a readable flag read answers its value, and every mask is within CC_MASK. -/
theorem flagReadsReturnTheMask : Obligations.FlagReadsReturnTheMask := by
  intro s hread
  have hcarry : (ccC s.cfg s.tag s.src s.dst).setWidth 64 = (ccAll s.cfg s.tag s.src s.dst).setWidth 64 &&& 1 :=
    BitVec.setWidth_and
  exact ⟨answers_flagRead hread _, hcarry ▸ answers_flagRead hread _, ccAll_within _ _ _ _⟩

/-- Settles O23: the three flag reads are one operation, which checks the contract before it answers. -/
theorem aBrokenContractFaultsTheFlagReads : Obligations.ABrokenContractFaultsTheFlagReads := by
  refine fun s => ⟨fun hstrict hpending => ?_, fun hlax => ?_⟩
  · have hfault := endsInModelFault_flagRead hstrict hpending
    exact ⟨hfault _, hfault _, hfault _⟩
  · have hread := answers_flagRead (s := s) (.inl hlax)
    exact ⟨hread _, hread _, hread _⟩

/-- Settles O24: both drive `out` with the mask of the tag in the register. -/
theorem ccFlagsRunsTheTagInTheRegister : Obligations.CcFlagsRunsTheTagInTheRegister := by
  intro s i hread hi
  rw [exec_ccFlags, flagRead_readable hread, exec_of_decodeTag hi]

/-! ### Tags without a width, and quadword tags at W = 32 -/

theorem familyOf_eq_none {m : Nat} (h : 10 ≤ m) : familyOf m = none := by
  obtain ⟨q, rfl⟩ := Nat.exists_eq_add_of_le' h
  rfl

/-- DYNAMIC and the undefined tags give no flag (41_condition_codes.md R123). -/
theorem ccAll_eq_zero {g : BitVec 8} (h : g = 0 ∨ 42 ≤ g.toNat) (p : Params) (src dst : Word) :
    ccAll p g src dst = 0 := by
  obtain rfl | h := h
  · rfl
  · have hzero : g ≠ 0 := by rintro rfl; simp at h
    have hone : g ≠ 1 := by rintro rfl; simp at h
    have htag : tagOp g = none := by
      rw [tagOp, if_neg hzero, if_neg hone, familyOf_eq_none (by omega), Option.map_none]
    simp [ccAll, htag]

theorem ccC_of_ccAll_eq_zero {p : Params} {g : BitVec 8} {src dst : Word} (h : ccAll p g src dst = 0) :
    ccC p g src dst = 0 := by
  simp [ccC, h]

/-- Settles O25: DYNAMIC and the undefined tags have the mask 0, DIRECT the stored one. -/
theorem tagsWithoutAWidthFollowTheirRules : Obligations.TagsWithoutAWidthFollowTheirRules := by
  refine ⟨fun p g src dst hg => ?_, fun s hread hg => ?_, ccAll_direct⟩
  · have hmask := ccAll_eq_zero hg p src dst
    exact ⟨hmask, ccC_of_ccAll_eq_zero hmask⟩
  · have hmask := ccAll_eq_zero hg s.cfg s.src s.dst
    rw [exec_ccFlags, exec_ccCarry, ccC_of_ccAll_eq_zero hmask, hmask]
    exact ⟨answers_flagRead hread 0, answers_flagRead hread 0⟩

/-- Settles O27: each tag drives `out` with its mask, and widening DIRECT's mask keeps the bits of `src` it selects. -/
theorem dynamicAndDirectTagsRun : Obligations.DynamicAndDirectTagsRun := by
  intro s
  have hdirect : (s.src.setWidth 32 &&& ccMask).setWidth 64 = s.src &&& ccMask.setWidth 64 := by
    ext j hj
    by_cases hlow : j < 32
    · simp [hlow, BitVec.getLsbD_eq_getElem hj]
    · simp [BitVec.getLsbD_of_ge ccMask j (by omega)]
  exact ⟨answers_driveOut s 0, hdirect ▸ answers_driveOut s _⟩

theorem materialize_quadword {p : Params} (h : p.w = .w32) (f : Family) (src dst : Word) :
    materialize p (.arith f .q) src dst = 0 :=
  if_pos ⟨rfl, h⟩

/-- The ten quadword tags are the families' tags of width Q (30_encoding.md R76). -/
theorem exec_quadwordTag : ∀ i ∈ [Instr.tagMulq, .tagAddq, .tagAdcq, .tagSubq, .tagSbbq, .tagLogicq, .tagIncq,
    .tagDecq, .tagShlq, .tagSarq], ∃ f, ∀ s, exec i s = runTag s (.arith f .q) := by
  simp only [List.forall_mem_cons]
  exact ⟨⟨.mul, fun _ => rfl⟩, ⟨.add, fun _ => rfl⟩, ⟨.adc, fun _ => rfl⟩, ⟨.sub, fun _ => rfl⟩,
    ⟨.sbb, fun _ => rfl⟩, ⟨.logic, fun _ => rfl⟩, ⟨.inc, fun _ => rfl⟩, ⟨.dec, fun _ => rfl⟩,
    ⟨.shl, fun _ => rfl⟩, ⟨.sar, fun _ => rfl⟩, List.forall_mem_nil _⟩

/-- Settles O26: at W = 32 the tag's instruction drives 0, and what it drives is the mask of its tag value. -/
theorem quadwordTagsGiveZeroAtW32 : Obligations.QuadwordTagsGiveZeroAtW32 := by
  intro s i hw hi
  obtain ⟨f, hexec⟩ := exec_quadwordTag i hi
  have hrun : exec i s = .next (s.driveOut 0) := by
    rw [hexec, runTag, materialize_quadword hw]
    rfl
  refine ⟨hrun ▸ answers_driveOut s 0, fun g hg => ?_⟩
  have hout : s.driveOut ((ccAll s.cfg g s.src s.dst).setWidth 64) = s.driveOut 0 := by
    simpa [hrun] using (exec_of_decodeTag hg s).symm
  have hmask : ccAll s.cfg g s.src s.dst = 0 := by
    have := congrArg (fun t => t.out.setWidth 32) hout
    simpa using this
  exact ⟨hmask, ccC_of_ccAll_eq_zero hmask⟩

/-! ### The flag mask bit by bit -/

theorem flagsAre_flagMask (cf pf af zf sf of : Bool) :
    flagsAre ((flagMask cf pf af zf sf of).setWidth 64) cf pf af zf sf of := by
  simp +contextual [flagsAre, flagMask_getLsbD, -BitVec.getLsbD_eq_getElem]

/-- Counting an even number of bits is folding them with exclusive or. -/
theorem decide_countP_even (b : Nat → Bool) (l : List Nat) :
    decide (l.countP b % 2 = 0) = !l.foldr (fun k acc => b k ^^ acc) false := by
  induction l with
  | nil => rfl
  | cons k l ih =>
    rw [List.foldr_cons, ← Bool.xor_not, ← ih, List.countP_cons]
    cases b k
    · simp
    · simp [Nat.succ_mod_two_eq_zero_iff, ← decide_not]

theorem parity8_setWidth {n : Nat} (d : BitVec n) : parity8 (d.setWidth 8) = evenLow8 d := by
  rw [evenLow8, decide_countP_even]
  simp [parity8, List.range_succ]

theorem resultFlagsAre_resultFlags {n : Nat} (d : BitVec n) (cf af of : Bool) :
    resultFlagsAre ((resultFlags d cf af of).setWidth 64) d cf af of := by
  have hzero : decide (d.toNat = 0) = decide (d = 0) := by simp [BitVec.toNat_eq]
  rw [resultFlagsAre, ← parity8_setWidth, hzero, ← BitVec.msb_eq_getLsbD_last]
  exact flagsAre_flagMask _ _ _ _ _ _

/-! ### Each family follows its rule -/

/-- The rule of each family, 41_condition_codes.md R126 to R135. -/
def familyRule (f : Family) {n : Nat} : Word → BitVec n → BitVec n → BitVec 64 → Prop :=
  match f with
  | .mul => mulRule
  | .add => addRule
  | .adc => adcRule
  | .sub => subRule
  | .sbb => sbbRule
  | .logic => logicRule
  | .inc => incRule
  | .dec => decRule
  | .shl => shlRule
  | .sar => sarRule

theorem eq_intMin_iff {n : Nat} (hn : 0 < n) (d : BitVec n) : d = BitVec.intMin n ↔ d.toNat = 2 ^ (n - 1) := by
  rw [BitVec.toNat_eq, BitVec.toNat_intMin_of_pos hn]

theorem eq_intMin_sub_one_iff {n : Nat} (hn : 0 < n) (d : BitVec n) :
    d = BitVec.intMin n - 1 ↔ d.toNat = 2 ^ (n - 1) - 1 := by
  have hone : (1 : BitVec n).toNat = 1 := BitVec.toNat_one hn
  have hmin : (BitVec.intMin n).toNat = 2 ^ (n - 1) := BitVec.toNat_intMin_of_pos hn
  have hle : 1 ≤ BitVec.intMin n := by
    rw [BitVec.le_def, hone, hmin]
    exact Nat.one_le_two_pow
  rw [BitVec.toNat_eq, BitVec.toNat_sub_of_le hle, hone, hmin]

/-- The decoder's comparisons are those of the rules by definition; what is left is the spelling of a top bit and of the
values at which INC and DEC overflow. -/
theorem familyRule_familyFlags (f : Family) {n : Nat} (hn : 0 < n) (src dst : Word) :
    familyRule f src (src.setWidth n) (dst.setWidth n) ((familyFlags f n src dst).setWidth 64) := by
  have hflags := resultFlagsAre_resultFlags (dst.setWidth n)
  cases f with
  | mul => exact hflags _ _ _
  | logic => exact hflags _ _ _
  | add => rw [familyRule, addRule, ← BitVec.msb_eq_getLsbD_last]; exact hflags _ _ _
  | adc => rw [familyRule, adcRule, ← BitVec.msb_eq_getLsbD_last]; exact hflags _ _ _
  | sub => rw [familyRule, subRule, ← BitVec.msb_eq_getLsbD_last]; exact hflags _ _ _
  | sbb => rw [familyRule, sbbRule, ← BitVec.msb_eq_getLsbD_last]; exact hflags _ _ _
  | shl => rw [familyRule, shlRule, ← BitVec.msb_eq_getLsbD_last, ← BitVec.msb_eq_getLsbD_last]; exact hflags _ _ _
  | sar => rw [familyRule, sarRule, ← BitVec.msb_eq_getLsbD_last]; exact hflags _ _ _
  | inc => rw [familyRule, incRule, ← decide_eq_decide.mpr (eq_intMin_iff hn _)]; exact hflags _ _ _
  | dec => rw [familyRule, decRule, ← decide_eq_decide.mpr (eq_intMin_sub_one_iff hn _)]; exact hflags _ _ _

/-- A width that fits W is not the quadword at W = 32, so its mask is the family's (41_condition_codes.md R124). -/
theorem materialize_arith {p : Params} {k : OpWidth} (h : opBits k ≤ widthBits p) (f : Family) (src dst : Word) :
    materialize p (.arith f k) src dst = familyFlags f (opBits k) src dst := by
  refine if_neg ?_
  rintro ⟨rfl, hw⟩
  simp [opBits, widthBits, hw] at h

theorem opBits_pos (k : OpWidth) : 0 < opBits k := by have := opBits_bounds k; omega

theorem tagRuns_familyRule {i : Instr} (f : Family) (k : OpWidth) (hexec : ∀ s, exec i s = runTag s (.arith f k)) :
    tagRuns i (opBits k) (familyRule f) := by
  intro s hk
  refine ⟨_, hexec s, rfl, rfl, ?_⟩
  rw [State.driveOut_out, materialize_arith hk]
  exact familyRule_familyFlags f (opBits_pos k) s.src s.dst

/-- Settles O28: the rules of MUL, LOGIC, INC and DEC at each width, each tag's instruction read off its definition. -/
theorem mulLogicIncDecTagsFollowTheirRules : Obligations.MulLogicIncDecTagsFollowTheirRules := by
  have run := @tagRuns_familyRule
  exact ⟨run .mul .b fun _ => rfl, run .mul .w fun _ => rfl, run .mul .l fun _ => rfl, run .mul .q fun _ => rfl,
    run .logic .b fun _ => rfl, run .logic .w fun _ => rfl, run .logic .l fun _ => rfl, run .logic .q fun _ => rfl,
    run .inc .b fun _ => rfl, run .inc .w fun _ => rfl, run .inc .l fun _ => rfl, run .inc .q fun _ => rfl,
    run .dec .b fun _ => rfl, run .dec .w fun _ => rfl, run .dec .l fun _ => rfl, run .dec .q fun _ => rfl⟩

/-- Settles O29: the rules of ADD and ADC at each width. -/
theorem addAndAdcTagsFollowTheirRules : Obligations.AddAndAdcTagsFollowTheirRules := by
  have run := @tagRuns_familyRule
  exact ⟨run .add .b fun _ => rfl, run .add .w fun _ => rfl, run .add .l fun _ => rfl, run .add .q fun _ => rfl,
    run .adc .b fun _ => rfl, run .adc .w fun _ => rfl, run .adc .l fun _ => rfl, run .adc .q fun _ => rfl⟩

/-- Settles O30: the rules of SUB and SBB at each width. -/
theorem subAndSbbTagsFollowTheirRules : Obligations.SubAndSbbTagsFollowTheirRules := by
  have run := @tagRuns_familyRule
  exact ⟨run .sub .b fun _ => rfl, run .sub .w fun _ => rfl, run .sub .l fun _ => rfl, run .sub .q fun _ => rfl,
    run .sbb .b fun _ => rfl, run .sbb .w fun _ => rfl, run .sbb .l fun _ => rfl, run .sbb .q fun _ => rfl⟩

/-- Settles O31: the rules of SHL and SAR at each width. -/
theorem shlAndSarTagsFollowTheirRules : Obligations.ShlAndSarTagsFollowTheirRules := by
  have run := @tagRuns_familyRule
  exact ⟨run .shl .b fun _ => rfl, run .shl .w fun _ => rfl, run .shl .l fun _ => rfl, run .shl .q fun _ => rfl,
    run .sar .b fun _ => rfl, run .sar .w fun _ => rfl, run .sar .l fun _ => rfl, run .sar .q fun _ => rfl⟩

theorem maskFor_familyRule (f : Family) (k : OpWidth) (s d : BitVec (opBits k)) :
    familyRule f (s.setWidth 64) s d (maskFor f k s d) := by
  have hrule := familyRule_familyFlags f (opBits_pos k) (s.setWidth 64) (d.setWidth 64)
  rwa [BitVec.setWidth_setWidth_of_le _ (opBits_bounds k).2, BitVec.setWidth_setWidth_of_le _ (opBits_bounds k).2,
    BitVec.setWidth_eq, BitVec.setWidth_eq] at hrule

/-! ### Sums and differences -/

/-- `r` is the sum x + y + c modulo 2^n. A difference x - y - c = r is the sum r + y + c = x, so that one set of facts
serves both. -/
def IsSum {n : Nat} (x y : BitVec n) (c : Nat) (r : BitVec n) : Prop := r = x + y + BitVec.ofNat n c

theorem isSum_add {n : Nat} (x y : BitVec n) : IsSum x y 0 (x + y) := (BitVec.add_zero _).symm

theorem isSum_add_one {n : Nat} (x y : BitVec n) : IsSum x y 1 (x + y + 1) := rfl

theorem sub_one_add_add_one {n : Nat} (x y : BitVec n) : x - y - 1 + y + 1 = x := by ring

theorem isSum_sub {n : Nat} (x y : BitVec n) : IsSum (x - y) y 0 x := by
  simpa using isSum_add (x - y) y

theorem isSum_sub_one {n : Nat} (x y : BitVec n) : IsSum (x - y - 1) y 1 x := (sub_one_add_add_one x y).symm

theorem mod_of_lt_two_mul {v m : Nat} (h : v < 2 * m) : v % m = v ∨ v % m + m = v := by
  obtain hlt | hge := Nat.lt_or_ge v m
  · exact .inl (Nat.mod_eq_of_lt hlt)
  · right
    rw [Nat.mod_eq_sub_mod hge, Nat.mod_eq_of_lt (by omega)]
    omega

theorem msb_eq_decide_two_mul {n : Nat} (x : BitVec n) : x.msb = decide (2 ^ n ≤ 2 * x.toNat) :=
  Bool.eq_iff_iff.mpr (by simp [BitVec.msb_eq_true_iff_two_mul_ge])

section
variable {n : Nat} {x y r : BitVec n} {c : Nat}

/-- A sum of two words and a carry-in of at most 1 leaves the width by 2^n or not at all. -/
theorem IsSum.toNat_cases (h : IsSum x y c r) (hc : c ≤ 1) :
    r.toNat = x.toNat + y.toNat + c ∨ r.toNat + 2 ^ n = x.toNat + y.toNat + c := by
  have hx := x.isLt
  have hy := y.isLt
  have hr : r.toNat = (x.toNat + y.toNat + c) % 2 ^ n := by
    rw [h]
    simp
  rw [hr]
  exact mod_of_lt_two_mul (by omega)

/-- The sum is below an operand and the carry-in exactly where it carries. -/
theorem IsSum.carry (h : IsSum x y c r) (hc : c ≤ 1) : r.toNat < y.toNat + c ↔ 2 ^ n ≤ x.toNat + y.toNat + c := by
  have hx := x.isLt
  obtain h | h := h.toNat_cases hc
  · omega
  · omega

/-- The carry into bit 4 shows in the exclusive or of the sum and its operands (41_condition_codes.md R127, R128). -/
theorem IsSum.adjust (h : IsSum x y c r) (hn : 8 ≤ n) (hc : c ≤ 1) :
    (r ^^^ y ^^^ x).getLsbD 4 = decide (16 ≤ x.toNat % 16 + y.toNat % 16 + c) := by
  obtain rfl | rfl : c = 0 ∨ c = 1 := by omega
  · have hr : r = x + y := h.trans (BitVec.add_zero _)
    exact hr ▸ sumAdjust_eq x y hn
  · have hr : r = x + y + 1 := h
    exact hr ▸ sumOneAdjust_eq x y hn

/-- The low nibble carries exactly where the sum's is below the operand's. -/
theorem IsSum.nibbleCarry (h : IsSum x y c r) (hn : 4 ≤ n) (hc : c ≤ 1) :
    16 ≤ x.toNat % 16 + y.toNat % 16 + c ↔ r.toNat % 16 < y.toNat % 16 + c := by
  obtain ⟨m, hm⟩ : 2 ^ 4 ∣ 2 ^ n := Nat.pow_dvd_pow 2 hn
  obtain h | h := h.toNat_cases hc
  · omega
  · omega

/-- The signed sum does not fit exactly where the operands have one sign and the result the other. -/
theorem IsSum.overflow (h : IsSum x y c r) (hn : 0 < n) (hc : c ≤ 1) :
    ((x.msb == y.msb) && (r.msb != y.msb)) = decide (r.toInt ≠ x.toInt + y.toInt + c) := by
  have hx := x.isLt
  have hy := y.isLt
  have hr := r.isLt
  have hsum := h.toNat_cases hc
  obtain ⟨m, hm⟩ : 2 ∣ 2 ^ n := dvd_pow_self 2 hn.ne'
  rw [Bool.eq_iff_iff]
  simp only [BitVec.toInt_eq_toNat_cond, msb_eq_decide_two_mul, Bool.and_eq_true, beq_iff_eq, bne_iff_ne, ne_eq,
    decide_eq_decide, decide_eq_true_eq, hm] at hx hy hr hsum ⊢
  split_ifs
  all_goals omega

/-- The difference's overflow is that of the sum of which it is an operand. -/
theorem IsSum.differenceOverflow (h : IsSum r y c x) (hn : 0 < n) (hc : c ≤ 1) :
    ((x.msb != y.msb) && (r.msb != x.msb)) = decide (r.toInt ≠ x.toInt - y.toInt - c) := by
  have hsigns : ((x.msb != y.msb) && (r.msb != x.msb)) = ((r.msb == y.msb) && (x.msb != y.msb)) := by
    cases x.msb <;> cases y.msb <;> cases r.msb <;> rfl
  rw [hsigns, h.overflow hn hc, decide_eq_decide]
  omega

/-- The tests of 41_condition_codes.md R127 and R128 are the true flags of the sum. -/
theorem IsSum.sumFlags (h : IsSum x y c r) (hn : 8 ≤ n) (hc : c ≤ 1) {v : BitVec 64}
    (hv : resultFlagsAre v r (decide (r.toNat < y.toNat + c)) ((r ^^^ y ^^^ x).getLsbD 4)
      (((y ^^^ x ^^^ BitVec.allOnes n) &&& (y ^^^ r)).getLsbD (n - 1))) :
    resultFlagsAre v r (decide (2 ^ n ≤ x.toNat + y.toNat + c)) (decide (16 ≤ x.toNat % 16 + y.toNat % 16 + c))
      (decide (r.toInt ≠ x.toInt + y.toInt + c)) := by
  rwa [decide_eq_decide.mpr (h.carry hc), h.adjust hn hc, ← BitVec.msb_eq_getLsbD_last,
    sumOverflow_eq x y r (by omega), h.overflow (by omega) hc] at hv

/-- The tests of 41_condition_codes.md R129 and R130 are the true flags of the difference. -/
theorem IsSum.differenceFlags (h : IsSum r y c x) (hn : 8 ≤ n) (hc : c ≤ 1) {v : BitVec 64}
    (hv : resultFlagsAre v r (decide (x.toNat < y.toNat + c)) ((r ^^^ x ^^^ y).getLsbD 4)
      (((x ^^^ y) &&& (x ^^^ r)).getLsbD (n - 1))) :
    resultFlagsAre v r (decide (x.toNat < y.toNat + c)) (decide (x.toNat % 16 < y.toNat % 16 + c))
      (decide (r.toInt ≠ x.toInt - y.toInt - c)) := by
  have hxor : r ^^^ x ^^^ y = x ^^^ y ^^^ r := by ac_rfl
  rwa [hxor, h.adjust hn hc, decide_eq_decide.mpr (h.nibbleCarry (by omega) hc), ← BitVec.msb_eq_getLsbD_last,
    differenceOverflow_eq, h.differenceOverflow (by omega) hc] at hv

end

/-- Settles O32: each family's rule, with the operand it recovers from the result in the operand's place. -/
theorem sumAndDifferenceFlagsAreTrue : Obligations.SumAndDifferenceFlagsAreTrue := by
  intro k x y
  have hn := (opBits_bounds k).1
  have hadd : addRule (y.setWidth 64) y (x + y) _ := maskFor_familyRule .add k y (x + y)
  have hadc : adcRule (y.setWidth 64) y (x + y + 1) _ := maskFor_familyRule .adc k y (x + y + 1)
  have hsub : subRule (y.setWidth 64) y (x - y) _ := maskFor_familyRule .sub k y (x - y)
  have hsbb : sbbRule (y.setWidth 64) y (x - y - 1) _ := maskFor_familyRule .sbb k y (x - y - 1)
  have hx : x + y + 1 - y - 1 = x := by ring
  rw [addRule, BitVec.add_sub_cancel] at hadd
  rw [adcRule, hx, ← decide_eq_decide.mpr Nat.lt_add_one_iff] at hadc
  rw [subRule, BitVec.sub_add_cancel] at hsub
  rw [sbbRule, sub_one_add_add_one, ← decide_eq_decide.mpr Nat.lt_add_one_iff] at hsbb
  refine ⟨?_, ?_, ?_, ?_⟩
  · simpa using (isSum_add x y).sumFlags hn (Nat.zero_le 1) hadd
  · exact (isSum_add_one x y).sumFlags hn le_rfl hadc
  · simpa using (isSum_sub x y).differenceFlags hn (Nat.zero_le 1) hsub
  · exact (isSum_sub_one x y).differenceFlags hn le_rfl hsbb

/-! ### Shifts -/

theorem carry_of_resultFlagsAre {n : Nat} {v : BitVec 64} {d : BitVec n} {cf af of : Bool}
    (h : resultFlagsAre v d cf af of) : v.getLsbD 0 = cf :=
  h.1

theorem overflow_of_resultFlagsAre {n : Nat} {v : BitVec 64} {d : BitVec n} {cf af of : Bool}
    (h : resultFlagsAre v d cf af of) : v.getLsbD 11 = of := by
  obtain ⟨-, -, -, -, -, hof, -⟩ := h
  exact hof

/-- What the SHL and SAR masks answer in CF and OF (41_condition_codes.md R134, R135). -/
theorem maskFor_shl_carry (k : OpWidth) (s d : BitVec (opBits k)) : (maskFor .shl k s d).getLsbD 0 = s.msb :=
  BitVec.msb_eq_getLsbD_last s ▸ carry_of_resultFlagsAre (maskFor_familyRule .shl k s d)

theorem maskFor_sar_carry (k : OpWidth) (s d : BitVec (opBits k)) : (maskFor .sar k s d).getLsbD 0 = s.getLsbD 0 :=
  carry_of_resultFlagsAre (maskFor_familyRule .sar k s d)

theorem maskFor_sar_overflow (k : OpWidth) (s d : BitVec (opBits k)) :
    (maskFor .sar k s d).getLsbD 11 = (s ^^^ d).msb :=
  BitVec.msb_eq_getLsbD_last (s ^^^ d) ▸ overflow_of_resultFlagsAre (maskFor_familyRule .sar k s d)

/-- Settles O33: the bit of the stored operand that each mask reads, followed back through the shift. -/
theorem shiftFlagsReportTheLastBitOut : Obligations.ShiftFlagsReportTheLastBitOut := by
  intro k x c hc hck
  have hn := opBits_pos k
  refine ⟨?_, ?_, ?_, ?_, ?_⟩
  · have hlt : opBits k - 1 < opBits k := by omega
    have hle : ¬ opBits k - 1 < c - 1 := by omega
    have hbit : opBits k - 1 - (c - 1) = opBits k - c := by omega
    rw [maskFor_shl_carry, BitVec.msb_eq_getLsbD_last, BitVec.getLsbD_shiftLeft, hbit, decide_eq_true hlt,
      decide_eq_false hle]
    rfl
  · rw [maskFor_sar_carry, BitVec.getLsbD_ushiftRight, Nat.add_zero]
  · rw [maskFor_sar_carry, BitVec.getLsbD_sshiftRight, if_pos (by omega), Nat.add_zero]
    simp [hn.ne']
  · rw [maskFor_sar_overflow, BitVec.msb_xor, BitVec.msb_sshiftRight, BitVec.msb_sshiftRight, Bool.xor_self]
  · rw [maskFor_sar_overflow, BitVec.msb_xor]
    simp [BitVec.msb_ushiftRight]

end Sys2Proof.Machine

/-! PROOFS. The EFLAGS multiplexer (42_eflags.md): what every step keeps of the base word and the direction word, the packed
value bit by bit, what a restore splits it into, and the round trip through both. -/

namespace Sys2Proof.Machine

open Sys2Proof.Claims

/-! ### The base word and the direction word -/

theorem State.baseOk_iff {s : State} : s.baseOk = true ↔ s.base.getLsbD 1 = true ∧ s.base &&& ownedMask = 0 := by
  simp [State.baseOk]

theorem State.dfOk_iff {s : State} : s.dfOk = true ↔ s.df = 1 ∨ s.df = 0xFFFFFFFF := by
  simp [State.dfOk]

section
variable {s t : State}

theorem baseOk_of_base_eq (h : t.base = s.base) (hs : s.baseOk = true) : t.baseOk = true := by
  simpa [State.baseOk, h] using hs

theorem dfOk_of_df_eq (h : t.df = s.df) (hs : s.dfOk = true) : t.dfOk = true := by
  simpa [State.dfOk, h] using hs

theorem baseOk_of_base_merge {v m : BitVec 32} (h : t.base = baseMerge s.base v m) (hs : s.baseOk = true) :
    t.baseOk = true := by
  obtain ⟨-, howned⟩ := State.baseOk_iff.mp hs
  exact State.baseOk_iff.mpr (h ▸ baseMerge_ok s.base v m howned)

theorem dfOk_of_df_word {d : Bool} (h : t.df = dfWord d) : t.dfOk = true := by
  rw [State.dfOk_iff, h]
  cases d
  · exact .inl rfl
  · exact .inr rfl

/-- The three commands that write the base word merge into it. -/
theorem baseOk_of_exec {i : Instr} (h : exec i s = .next t) (hs : s.baseOk = true) : t.baseOk = true := by
  obtain hbase | rfl | rfl | rfl := (exec_ends h).own.base
  · exact baseOk_of_base_eq hbase hs
  all_goals
    cases h
    exact baseOk_of_base_merge rfl hs

/-- The commands that write the direction word write the word of one bit to it. -/
theorem dfOk_of_exec {i : Instr} (h : exec i s = .next t) (hs : s.dfOk = true) : t.dfOk = true := by
  obtain hdf | rfl | rfl | rfl | rfl | ⟨d, rfl⟩ := (exec_ends h).own.df
  · exact dfOk_of_df_eq hdf hs
  · cases h; exact dfOk_of_df_word (d := (portA32 s).getLsbD 10) rfl
  · cases h; exact dfOk_of_df_word (d := (portA32 s).getLsbD 10) rfl
  · cases h; exact dfOk_of_df_word (d := false) rfl
  · cases h; exact dfOk_of_df_word (d := true) rfl
  · cases h; exact dfOk_of_df_word (d := d) rfl

end

/-- Settles O57: reset has both, a command keeps both, and no other step but a reset writes either word. -/
theorem stepsKeepTheBaseWordAndTheDirection : Obligations.StepsKeepTheBaseWordAndTheDirection := by
  refine ⟨fun p => ⟨baseOk_atReset p, dfOk_atReset p⟩, fun s t h => ?_⟩
  obtain ⟨-, rfl⟩ | ⟨a, b, rest, -, rfl⟩ | ⟨rest, -, rfl⟩ | ⟨c, rest, -, rfl | ⟨i, -, -, he⟩⟩ := step_cases h
  · exact ⟨id, id⟩
  · exact ⟨baseOk_of_base_eq rfl, dfOk_of_df_eq rfl⟩
  · exact ⟨fun _ => baseOk_atReset s.cfg, fun _ => dfOk_atReset s.cfg⟩
  · exact ⟨baseOk_of_base_eq rfl, dfOk_of_df_eq rfl⟩
  · exact ⟨fun hs => baseOk_of_exec he hs, fun hs => dfOk_of_exec he hs⟩

/-! ### The masks -/

/-- OWNED_MASK, bit by bit (10_state.md R29). -/
theorem ownedMask_getLsbD : ∀ i < 32, ownedMask.getLsbD i = decide (i ∈ [0, 2, 4, 6, 7, 10, 11]) := by decide

/-- Every owned bit but DF is a flag's (10_state.md R29). -/
theorem ccMask_getLsbD : ∀ i < 32, ccMask.getLsbD i = (ownedMask.getLsbD i && !decide (i = 10)) := by decide

theorem dfMask_getLsbD : ∀ i < 32, dfMask.getLsbD i = decide (i = 10) := by decide

/-- A mask within another has no bit outside it. -/
theorem getLsbD_eq_false_of_and_not {x m : BitVec 32} (h : x &&& ~~~m = 0) {i : Nat} (hi : i < 32)
    (hm : m.getLsbD i = false) : x.getLsbD i = false := by
  have hbit : (x &&& ~~~m).getLsbD i = false := by rw [h]; exact BitVec.getLsbD_zero
  simpa only [BitVec.getLsbD_and, BitVec.getLsbD_not, hi, hm, decide_true, Bool.not_false, Bool.and_true] using hbit

/-- Words with no common bit. -/
theorem getLsbD_eq_false_of_and {x m : BitVec 32} (h : x &&& m = 0) {i : Nat} (hm : m.getLsbD i = true) :
    x.getLsbD i = false := by
  have hbit : (x &&& m).getLsbD i = false := by rw [h]; exact BitVec.getLsbD_zero
  rwa [BitVec.getLsbD_and, hm, Bool.and_true] at hbit

/-- The six flags of a port, taken from its low 32 bits. -/
theorem setWidth_and_ccMask (x : Word) : (x.setWidth 32 &&& ccMask).setWidth 64 = x &&& 0x000008D5 := by
  have hmask : ccMask.setWidth 64 = (0x000008D5 : Word) := rfl
  rw [← hmask]
  ext i hi
  by_cases hlow : i < 32
  · simp [hlow, BitVec.getLsbD_eq_getElem hi]
  · simp [BitVec.getLsbD_of_ge ccMask i (by omega)]

/-- The direction word holds the bit it was made of in the place of DF (10_state.md R30). -/
theorem dfWord_getLsbD_ten (d : Bool) : (dfWord d).getLsbD 10 = d := by cases d <;> rfl

theorem baseMerge_getLsbD_one (base v m : BitVec 32) : (baseMerge base v m).getLsbD 1 = true := by simp [baseMerge]

/-- A bit of the base word that is neither owned nor the constant one follows the mask (42_eflags.md R165). -/
theorem baseMerge_getLsbD (base v m : BitVec 32) {i : Nat} (hi : i < 32) (hone : i ≠ 1)
    (howned : ownedMask.getLsbD i = false) :
    (baseMerge base v m).getLsbD i = if m.getLsbD i then v.getLsbD i else base.getLsbD i := by
  have htwo : (0x00000002 : BitVec 32).getLsbD i = false := by
    revert i
    decide
  simp only [baseMerge, BitVec.getLsbD_or, BitVec.getLsbD_and, BitVec.getLsbD_not, htwo, howned, hi]
  cases m.getLsbD i <;> simp

/-! ### The packed value, bit by bit -/

section
variable {s : State} {i : Nat}

/-- An owned bit does not come from the base word: bit 10 is that of `df`, every other is the mask's (42_eflags.md R160). -/
theorem packEflags_getLsbD_owned (hs : s.baseOk = true) (hi : i < 32) (howned : ownedMask.getLsbD i = true) :
    (packEflags s).getLsbD i
      = if i = 10 then s.df.getLsbD 10 else (ccAll s.cfg s.tag s.src s.dst).getLsbD i := by
  obtain ⟨-, hbase⟩ := State.baseOk_iff.mp hs
  have hzero := getLsbD_eq_false_of_and hbase howned
  by_cases hten : i = 10
  · subst hten
    have hcc := getLsbD_eq_false_of_and_not (ccAll_within s.cfg s.tag s.src s.dst) hi (by decide)
    simp [-BitVec.getLsbD_eq_getElem, packEflags, hzero, hcc, dfMask_getLsbD 10 hi]
  · simp [-BitVec.getLsbD_eq_getElem, packEflags, hzero, dfMask_getLsbD i hi, hten]

/-- A bit that is not owned comes from the base word alone (42_eflags.md R160). -/
theorem packEflags_getLsbD_other (hi : i < 32) (howned : ownedMask.getLsbD i = false) :
    (packEflags s).getLsbD i = s.base.getLsbD i := by
  have hten : i ≠ 10 := by
    rintro rfl
    exact absurd howned (by decide)
  have hcc := getLsbD_eq_false_of_and_not (ccAll_within s.cfg s.tag s.src s.dst) hi
    (by rw [ccMask_getLsbD i hi, howned, Bool.false_and])
  simp [packEflags, hcc, dfMask_getLsbD i hi, hten]

/-- A bit of the port `out` when it shows the packed value. -/
theorem out_getLsbD_packed (hi : i < 32) :
    (s.driveOut ((packEflags s).setWidth 64)).out.getLsbD i = (packEflags s).getLsbD i := by
  have hi64 : i < 64 := by omega
  rw [State.driveOut_out, BitVec.getLsbD_setWidth, decide_eq_true hi64, Bool.true_and]

/-- The six flags of the packed value are the mask (42_eflags.md R161). -/
theorem packEflags_and_ccMask (hs : s.baseOk = true) : packEflags s &&& ccMask = ccAll s.cfg s.tag s.src s.dst := by
  refine BitVec.eq_of_getLsbD_eq fun i hi => ?_
  rw [BitVec.getLsbD_and]
  cases hcc : ccMask.getLsbD i with
  | false => rw [Bool.and_false, getLsbD_eq_false_of_and_not (ccAll_within s.cfg s.tag s.src s.dst) hi hcc]
  | true =>
    obtain ⟨howned, hten⟩ : ownedMask.getLsbD i = true ∧ i ≠ 10 := by simpa [ccMask_getLsbD i hi] using hcc
    rw [packEflags_getLsbD_owned hs hi howned, if_neg hten, Bool.and_true]

/-- `df`, where it is one of its two values, shows DF as its sign (10_state.md R30). -/
theorem df_getLsbD_ten (hs : s.dfOk = true) : s.df.getLsbD 10 = decide (s.df = 0xFFFFFFFF) := by
  obtain hdf | hdf := State.dfOk_iff.mp hs
  · simp [hdf]
  · simp [hdf]

end

/-! ### The outcome of each command -/

theorem exec_eflPack (s : State) : exec .eflPack s = flagRead s (packEflags s) := rfl

/-- An EFL_PACK that does not fault has answered the packed value. -/
theorem eflPack_of_fault_none {s p : State} (h : exec .eflPack s = .next p) (hp : p.fault = none) :
    p = s.driveOut ((packEflags s).setWidth 64) := by
  rw [exec_eflPack] at h
  obtain ⟨-, hraise⟩ | ⟨-, hdrive⟩ := flagRead_cases s (packEflags s)
  · cases hraise.symm.trans h
    cases hp
  · cases hdrive.symm.trans h
    rfl

theorem succeeds_done (u : State) : succeeds (.next u.done) u := ⟨_, rfl, rfl, rfl⟩

/-- Settles O35: the restore in the raw form, its masks written out. -/
theorem eflRestoreSplitsTheValue : Obligations.EflRestoreSplitsTheValue :=
  fun s => succeeds_done (s.restoreEflags false (portA32 s) (portB32 s))

/-- Settles O37: the base word on the port, and its masked write. -/
theorem baseWordReadsAndWrites : Obligations.BaseWordReadsAndWrites :=
  fun s => ⟨answers_driveOut s _, succeeds_done { s with base := baseMerge s.base (portA32 s) (portB32 s) }⟩

/-- Settles O38: DF_RD by the value of `df`, each write by the word it writes. -/
theorem directionFlagReadsAndWrites : Obligations.DirectionFlagReadsAndWrites := by
  intro s
  have hread : answers (exec .dfRd s) s (s.df.signExtend 64) := answers_driveOut s _
  refine ⟨hread, fun hdf => ?_, fun hdf => ?_, succeeds_done _, succeeds_done _, succeeds_done _, succeeds_done _⟩
  · rwa [hdf] at hread
  · rwa [hdf] at hread

/-- Settles O34: a readable flag read answers the packed value, whose bits come each from its own source. -/
theorem eflPackMergesTheThreeSources : Obligations.EflPackMergesTheThreeSources := by
  intro s hread
  refine ⟨answers_flagRead hread (packEflags s), fun hbase hdf t ht => ?_⟩
  rw [exec_eflPack, flagRead_readable hread] at ht
  cases ht
  obtain ⟨hone, -⟩ := State.baseOk_iff.mp hbase
  refine ⟨?_, ?_, ?_⟩
  · exact (out_getLsbD_packed (by decide)).trans ((packEflags_getLsbD_other (by decide) (by decide)).trans hone)
  · exact (out_getLsbD_packed (by decide)).trans
      ((packEflags_getLsbD_owned hbase (by decide) (by decide)).trans (df_getLsbD_ten hdf))
  · rw [← packEflags_and_ccMask hbase, BitVec.setWidth_and]
    rfl

/-! ### Restore, then CC_DIRECT -/

theorem runAll_cons {i : Instr} {l : List Instr} {s t : State} (h : exec i s = .next t) :
    runAll (i :: l) s = runAll l t := by
  simp only [runAll, h]

/-- The state that EFL_RESTORE followed by CC_DIRECT leaves. -/
def State.restoredThenDirect (s : State) : State :=
  ((s.restoreEflags false (portA32 s) (portB32 s)).done.ccRecord true false false 1 (portA s) (portB s)).done

theorem exec_eflRestore (s : State) :
    exec .eflRestore s = .next (s.restoreEflags false (portA32 s) (portB32 s)).done := rfl

theorem exec_ccDirect_restored (s : State) :
    exec .ccDirect (s.restoreEflags false (portA32 s) (portB32 s)).done = .next s.restoredThenDirect := rfl

/-- CC_DIRECT turns the raw form of a restore into the direct one (42_eflags.md R163). -/
theorem settled_restoredThenDirect (s : State) :
    s.restoredThenDirect.settled = (s.restoreEflags true (portA32 s) (portB32 s)).settled := rfl

/-- Settles O36: the two states agree on everything but the result ports and the counter. -/
theorem eflRestoreDirectIsRestoreThenDirect : Obligations.EflRestoreDirectIsRestoreThenDirect :=
  fun s => ⟨_, s.restoredThenDirect, rfl, (runAll_pair (exec_eflRestore s)).trans (exec_ccDirect_restored s), rfl, rfl,
    (settled_restoredThenDirect s).symm, rfl, rfl, setWidth_and_ccMask s.port.a⟩

/-! ### The round trip -/

/-- The packed value is read off block state alone. -/
theorem packEflags_settled (s : State) : packEflags s.settled = packEflags s := rfl

/-- After a direct restore the mask is the six flags of the restored value (42_eflags.md R163). -/
theorem ccAll_restoreEflags (s : State) (v m : BitVec 32) :
    ccAll (s.restoreEflags true v m).cfg (s.restoreEflags true v m).tag (s.restoreEflags true v m).src
      (s.restoreEflags true v m).dst = v &&& ccMask := by
  rw [State.restoreEflags_tag, if_pos rfl, ccAll_direct, State.restoreEflags_src, BitVec.setWidth_setWidth_of_le _ (by decide), BitVec.setWidth_eq,
    BitVec.and_assoc, BitVec.and_self]

/-- Packing after a direct restore: an owned bit is the restored value's, another follows the mask (42_eflags.md R169). -/
theorem packEflags_restoreEflags_getLsbD {s : State} {v m : BitVec 32} {i : Nat} (hs : s.baseOk = true) (hi : i < 32) :
    (packEflags (s.restoreEflags true v m)).getLsbD i
      = if i = 1 then true
        else if ownedMask.getLsbD i then v.getLsbD i
        else if m.getLsbD i then v.getLsbD i
        else (packEflags s).getLsbD i := by
  have hbase : (s.restoreEflags true v m).baseOk = true := baseOk_of_base_merge rfl hs
  cases howned : ownedMask.getLsbD i with
  | true =>
    have hone : i ≠ 1 := by
      rintro rfl
      exact absurd howned (by decide)
    rw [packEflags_getLsbD_owned hbase hi howned, if_neg hone, if_pos rfl]
    split
    next hten => rw [hten, State.restoreEflags_df, dfWord_getLsbD_ten]
    next hten =>
      rw [ccAll_restoreEflags, BitVec.getLsbD_and, ccMask_getLsbD i hi, howned, decide_eq_false hten]
      simp
  | false =>
    rw [packEflags_getLsbD_other hi howned, packEflags_getLsbD_other hi howned, State.restoreEflags_base]
    split
    next hone => rw [hone, baseMerge_getLsbD_one]
    next hone => simpa using baseMerge_getLsbD s.base v m hi hone howned

/-- Settles O39: after the restore and CC_DIRECT nothing is pending, so EFL_PACK answers, and its value is that of a direct
restore. -/
theorem eflagsRoundTripBitByBit : Obligations.EflagsRoundTripBitByBit := by
  intro s p hs hpack hfault
  obtain rfl := eflPack_of_fault_none hpack hfault
  have hread : flagsReadable s.restoredThenDirect := .inr rfl
  have hrun : runAll [.eflRestore, .ccDirect, .eflPack] s
      = .next (s.restoredThenDirect.driveOut ((packEflags s.restoredThenDirect).setWidth 64)) := by
    rw [runAll_cons (exec_eflRestore s), runAll_pair (exec_ccDirect_restored s), exec_eflPack, flagRead_readable hread]
  refine ⟨_, hrun, rfl, fun i hi => ?_⟩
  have hbit := packEflags_restoreEflags_getLsbD (v := portA32 s) (m := portB32 s) hs hi
  rw [← packEflags_settled (s.restoreEflags _ _ _), ← settled_restoredThenDirect, packEflags_settled,
    ownedMask_getLsbD i hi] at hbit
  rw [out_getLsbD_packed hi, hbit, out_getLsbD_packed hi]
  simp [portA32, portB32, hi]

end Sys2Proof.Machine

/-! PROOFS. The FPU stack (43_fpu_stack.md): what each command does to the index, the tags and the slots, the laws of
push and pop, and the 80-bit transfers byte by byte, whether their accesses complete or fail. -/

namespace Sys2Proof.Machine

open Sys2Proof.Claims

/-! ### One tag, and the index -/

/-- Marking one tag leaves every other (10_state.md R33). -/
theorem ftagSet_getLsbD (f : BitVec 8) (k : BitVec 3) (empty : Bool) {j : Nat} (hj : j < 8) :
    (ftagSet f k empty).getLsbD j = if j = k.toNat then empty else f.getLsbD j := by
  have hbit : (1#8 <<< k.toNat).getLsbD j = decide (j = k.toNat) := by
    simp [← BitVec.twoPow_eq, BitVec.getLsbD_twoPow, k.isLt, eq_comm]
  unfold ftagSet
  split <;> rename_i hempty
  · rw [BitVec.getLsbD_or, hbit, hempty]
    by_cases h : j = k.toNat <;> simp [h]
  · rw [BitVec.getLsbD_and, BitVec.getLsbD_not, hbit, Bool.eq_false_of_not_eq_true hempty]
    by_cases h : j = k.toNat <;> simp [h, hj]

/-- A push lowers the index by one modulo 8 (43_fpu_stack.md R190). -/
theorem top_sub_one_toNat (top : BitVec 3) : (top - 1).toNat = (top.toNat + 7) % 8 := by bv_omega

/-- `ST(i)` names the slot `(top + i) mod 8` (10_state.md R34). -/
theorem stIndex_eq {s : State} {i k : BitVec 3} (h : k.toNat = (s.top.toNat + i.toNat) % 8) : stIndex s i = k :=
  BitVec.eq_of_toNat_eq ((BitVec.toNat_add s.top i).trans h.symm)

theorem exec_fpuPush (s : State) : exec .fpuPush s = .next s.push.done := rfl

theorem exec_fpuPop (s : State) : exec .fpuPop s = .next s.pop.done := rfl

/-! ### The laws of push and pop -/

theorem runAll_append {l m : List Instr} {s t : State} (h : runAll l s = .next t) : runAll (l ++ m) s = runAll m t := by
  induction l generalizing s with
  | nil => cases h; rfl
  | cons i l ih =>
    rw [List.cons_append]
    cases hi : exec i s with
    | next u =>
      rw [runAll_cons hi] at h ⊢
      exact ih h
    | fault f => simp [runAll, hi] at h
    | refused r => simp [runAll, hi] at h

/-- The index counts pops up and pushes down, in whatever order they come. -/
theorem runAll_pushes_pops_top {l : List Instr} (hl : ∀ i ∈ l, i = .fpuPush ∨ i = .fpuPop) (s : State) :
    ∃ t, runAll l s = .next t
      ∧ t.top = s.top + BitVec.ofNat 3 (l.count .fpuPop) - BitVec.ofNat 3 (l.count .fpuPush) := by
  induction l generalizing s with
  | nil => exact ⟨s, rfl, by simp⟩
  | cons i l ih =>
    obtain ⟨hi, hrest⟩ := List.forall_mem_cons.mp hl
    obtain rfl | rfl := hi
    · obtain ⟨t, ht, htop⟩ := ih hrest s.push.done
      refine ⟨t, (runAll_cons (exec_fpuPush s)).trans ht, ?_⟩
      rw [htop, State.done_top, State.push_top, List.count_cons_self, List.count_cons_of_ne (by decide),
        BitVec.ofNat_add, BitVec.ofNat_eq_ofNat]
      ring
    · obtain ⟨t, ht, htop⟩ := ih hrest s.pop.done
      refine ⟨t, (runAll_cons (exec_fpuPop s)).trans ht, ?_⟩
      rw [htop, State.done_top, State.pop_top, List.count_cons_self, List.count_cons_of_ne (by decide),
        BitVec.ofNat_add, BitVec.ofNat_eq_ofNat]
      ring

theorem runAll_balanced_top {l : List Instr} (hl : ∀ i ∈ l, i = .fpuPush ∨ i = .fpuPop)
    (hcount : l.count .fpuPush = l.count .fpuPop) (s : State) : ∃ t, runAll l s = .next t ∧ t.top = s.top := by
  obtain ⟨t, ht, htop⟩ := runAll_pushes_pops_top hl s
  exact ⟨t, ht, by rw [htop, hcount, BitVec.add_sub_cancel]⟩

/-- A tag that is not at the index is one nearer to the next. -/
theorem toNat_sub_add_one_lt {k top : BitVec 3} {n : Nat} (h : (k - top).toNat < n + 1) (hne : k ≠ top) :
    (k - (top + 1)).toNat < n := by
  bv_omega

/-- A pop empties the tag at the index and fills none, so `n` pops empty the `n` tags from the index up. -/
theorem runAll_pops_empty (n : Nat) (s : State) :
    ∃ t, runAll (List.replicate n .fpuPop) s = .next t
      ∧ ∀ k : BitVec 3, s.ftag.getLsbD k.toNat = true ∨ (k - s.top).toNat < n → t.ftag.getLsbD k.toNat = true := by
  induction n generalizing s with
  | zero => exact ⟨s, rfl, fun k hk => hk.resolve_right (Nat.not_lt_zero _)⟩
  | succ n ih =>
    obtain ⟨t, ht, hempty⟩ := ih s.pop.done
    refine ⟨t, (runAll_cons (exec_fpuPop s)).trans ht, fun k hk => hempty k ?_⟩
    rw [State.done_ftag, State.pop_ftag, ftagSet_getLsbD _ _ _ k.isLt, State.done_top, State.pop_top]
    by_cases htop : k = s.top
    · exact .inl (if_pos (congrArg BitVec.toNat htop))
    · rw [if_neg fun h => htop (BitVec.eq_of_toNat_eq h)]
      exact hk.imp_right fun hlt => toNat_sub_add_one_lt hlt htop

/-- Eight pops go once around the stack. -/
theorem runAll_eight_pops_ftag (s : State) :
    ∃ t, runAll (List.replicate 8 .fpuPop) s = .next t ∧ t.ftag = 0xFF := by
  obtain ⟨t, ht, hempty⟩ := runAll_pops_empty 8 s
  refine ⟨t, ht, BitVec.eq_of_getLsbD_eq fun k hk => ?_⟩
  have hk8 : (BitVec.ofNat 3 k).toNat = k := Nat.mod_eq_of_lt hk
  have hbit := hempty (BitVec.ofNat 3 k) (.inr (k - s.top).isLt)
  rw [hk8] at hbit
  exact hbit.trans (BitVec.getLsbD_allOnes.trans (decide_eq_true hk)).symm

theorem runAll_eight_pushes_eight_pops (s : State) :
    ∃ t, runAll (List.replicate 8 .fpuPush ++ List.replicate 8 .fpuPop) s = .next t
      ∧ t.top = s.top ∧ t.ftag = 0xFF := by
  have hpush : ∀ i ∈ List.replicate 8 Instr.fpuPush, i = .fpuPush ∨ i = .fpuPop :=
    fun i hi => .inl (List.eq_of_mem_replicate hi)
  have hpop : ∀ i ∈ List.replicate 8 Instr.fpuPop, i = .fpuPush ∨ i = .fpuPop :=
    fun i hi => .inr (List.eq_of_mem_replicate hi)
  obtain ⟨u, hu, -⟩ := runAll_pushes_pops_top hpush s
  obtain ⟨t, ht, hempty⟩ := runAll_eight_pops_ftag u
  have hrun := (runAll_append hu).trans ht
  obtain ⟨t', ht', htop⟩ := runAll_balanced_top (List.forall_mem_append.mpr ⟨hpush, hpop⟩) (by decide) s
  cases hrun.symm.trans ht'
  exact ⟨t, hrun, htop, hempty⟩

/-- From `s` to `t` the index is the same, the tag below the top is empty, and every other tag is as it was
(43_fpu_stack.md R200). -/
structure EmptiesBelowTop (s t : State) : Prop where
  top : t.top = s.top
  ftag : ∀ k, k < 8 → t.ftag.getLsbD k = if k = (s.top.toNat + 7) % 8 then true else s.ftag.getLsbD k

theorem EmptiesBelowTop.trans {s t u : State} (h : EmptiesBelowTop s t) (h' : EmptiesBelowTop t u) :
    EmptiesBelowTop s u where
  top := h'.top.trans h.top
  ftag k hk := by
    rw [h'.ftag k hk, h.ftag k hk, h.top]
    split <;> rfl

/-- A push marks the tag below the top and the pop after it marks the same one. -/
theorem emptiesBelowTop_push_pop (s : State) : EmptiesBelowTop s s.push.done.pop.done where
  top := by simp
  ftag k hk := by
    rw [State.done_ftag, State.pop_ftag, ftagSet_getLsbD _ _ _ hk, State.done_ftag, State.push_ftag,
      ftagSet_getLsbD _ _ _ hk, State.done_top, State.push_top, top_sub_one_toNat]
    split <;> rfl

theorem runAll_push_pop (s : State) : runAll [.fpuPush, .fpuPop] s = .next s.push.done.pop.done :=
  (runAll_pair (exec_fpuPush s)).trans (exec_fpuPop s.push.done)

/-- Every pair after the first marks the tag that the first has emptied. -/
theorem runAll_pairs (n : Nat) (s : State) :
    ∃ t, runAll (List.replicate (n + 1) [Instr.fpuPush, .fpuPop]).flatten s = .next t ∧ EmptiesBelowTop s t := by
  induction n generalizing s with
  | zero => exact ⟨_, runAll_push_pop s, emptiesBelowTop_push_pop s⟩
  | succ n ih =>
    obtain ⟨t, ht, h⟩ := ih s.push.done.pop.done
    refine ⟨t, ?_, (emptiesBelowTop_push_pop s).trans h⟩
    rw [List.replicate_succ, List.flatten_cons, runAll_append (runAll_push_pop s), ht]

/-- Settles O43: the index counts pops less pushes, a pair marks one tag, and eight pops mark all. -/
theorem pushAndPopSequences : Obligations.PushAndPopSequences := by
  intro s
  obtain ⟨t, ht, hpairs⟩ := runAll_pairs 7 s
  have hpair := emptiesBelowTop_push_pop s
  exact ⟨fun l hl hcount => runAll_balanced_top hl hcount s, ⟨_, runAll_push_pop s, hpair.top, hpair.ftag⟩,
    runAll_eight_pushes_eight_pops s, t, ht, hpairs.top, hpairs.ftag⟩

/-! ### The commands of the stack, with their frames -/

/-- Settles O40: each moves the index and marks the tag that its definition names. -/
theorem pushAndPopMoveTheIndexAndOneTag : Obligations.PushAndPopMoveTheIndexAndOneTag :=
  fun s => ⟨⟨_, exec_fpuPush s, rfl, top_sub_one_toNat s.top, fun _ hk => ftagSet_getLsbD s.ftag _ false hk, rfl⟩,
    _, exec_fpuPop s, rfl, BitVec.toNat_add s.top 1, fun _ hk => ftagSet_getLsbD s.ftag s.top true hk, rfl⟩

theorem exec_fpuRd (i : BitVec 3) (s : State) :
    exec (.fpuRd i) s = .next (s.driveOut80 (s.slotGet (stIndex s i))) := rfl

theorem exec_fpuWr (i : BitVec 3) (s : State) :
    exec (.fpuWr i) s = .next (s.slotSet (stIndex s i) s.port.v).done := rfl

/-- Settles O41: the slot that `ST(i)` names is read and set. -/
theorem stackSlotsReadAndWrite : Obligations.StackSlotsReadAndWrite := by
  intro s i k hk
  obtain rfl := stIndex_eq hk
  exact ⟨⟨_, exec_fpuRd i s, rfl, rfl, rfl⟩, _, exec_fpuWr i s, rfl, s.slotGet_slotSet _ s.port.v,
    fun q hq => s.slotGet_slotSet_ne s.port.v hq, rfl⟩

/-- The fields of the FPU state word do not overlap (43_fpu_stack.md R194). -/
theorem fpuWord_toNat (s : State) : (fpuWord s).toNat = s.top.toNat + 256 * s.ftag.toNat := by
  have hword : fpuWord s = (0#48 ++ s.ftag ++ 0#5 ++ s.top : BitVec (48 + 8 + 5 + 3)) := rfl
  rw [hword, BitVec.toNat_append, BitVec.toNat_append, BitVec.toNat_append,
    ← Nat.shiftLeft_add_eq_or_of_lt s.top.isLt]
  simp only [BitVec.toNat_ofNat, Nat.shiftLeft_eq, Nat.zero_mod, Nat.zero_mul, Nat.zero_or, Nat.or_zero]
  omega

/-- A field of the port, bit by bit. -/
theorem fpuLoadWord_ftag_getLsbD (s : State) (a : BitVec 64) {k : Nat} (hk : k < 8) :
    (s.fpuLoadWord a).ftag.getLsbD k = a.getLsbD (8 + k) := by
  rw [State.fpuLoadWord_ftag, BitVec.getLsbD_extractLsb', decide_eq_true hk, Bool.true_and]

theorem fpuLoadWord_top_toNat (s : State) (a : BitVec 64) : (s.fpuLoadWord a).top.toNat = a.toNat % 8 := by
  rw [State.fpuLoadWord_top, BitVec.extractLsb'_toNat, Nat.shiftRight_zero]

/-- 0xFF00 is the word of an empty stack at index 0 (30_encoding.md R85). -/
theorem fpuLoadWord_reset (s : State) : s.fpuLoadWord 0xFF00 = { s with top := 0, ftag := 0xFF } := by
  have htop : (0xFF00 : BitVec 64).extractLsb' 0 3 = 0 := by decide
  have hftag : (0xFF00 : BitVec 64).extractLsb' 8 8 = 0xFF := by decide
  rw [State.fpuLoadWord, htop, hftag]

theorem exec_fpuStRd (s : State) : exec .fpuStRd s = .next (s.driveOut (fpuWord s)) := rfl

theorem exec_fpuStWr (s : State) : exec .fpuStWr s = .next (s.fpuLoadWord s.port.a).done := rfl

theorem exec_fpuResetState (s : State) : exec .fpuResetState s = .next (s.fpuLoadWord 0xFF00).done := rfl

/-- Settles O42: the state word read, and its two fields written. -/
theorem fpuStateWordReadsAndWrites : Obligations.FpuStateWordReadsAndWrites := by
  intro s
  refine ⟨⟨_, exec_fpuStRd s, rfl, rfl, fpuWord_toNat s⟩,
    ⟨_, exec_fpuStWr s, rfl, fpuLoadWord_top_toNat s s.port.a, fun _ hk => fpuLoadWord_ftag_getLsbD s s.port.a hk, rfl⟩,
    ?_⟩
  rw [exec_fpuResetState, fpuLoadWord_reset]
  exact succeeds_done _

/-! ### An 80-bit load (43_fpu_stack.md R196) -/

/-- What the first access of a load leaves: guest memory after other agents' writes, and the request issued. -/
def State.firstRead (s : State) : State := (s.memRead s.port.first (portAddr s) 8).1

/-- What both accesses of a load leave. -/
def State.secondRead (s : State) : State := (s.firstRead.memRead s.port.second (secondAddr s) 2).1

/-- The value of the first access of a load. -/
def loadedLow (s : State) : BitVec 64 := (readBytes s.cfg s.port.first.disturbance (portAddr s) 8 s.mem).2

/-- The value of the second access of a load. -/
def loadedHigh (s : State) : BitVec 64 :=
  (readBytes s.cfg s.port.second.disturbance (secondAddr s) 2 s.firstRead.mem).2

/-- The pattern that a load whose accesses complete answers. -/
def loaded (s : State) : Slot := (loadedHigh s).setWidth 16 ++ loadedLow s

section
variable {s : State}

theorem exec_fpuLd80_firstFails (h : s.port.first.failure ≠ none) :
    exec .fpuLd80 s = .next (s.firstRead.raise (.memFault (portAddr s) 8 .read)) := by
  obtain ⟨-, hr⟩ | ⟨hf, -, -⟩ | ⟨hf, -, -⟩ := execFpuLd80_cases s
  · exact hr
  · exact absurd hf h
  · exact absurd hf h

theorem exec_fpuLd80_secondFails (h : s.port.first.failure = none) (h' : s.port.second.failure ≠ none) :
    exec .fpuLd80 s = .next (s.secondRead.raise (.memFault (secondAddr s) 2 .read)) := by
  obtain ⟨hf, -⟩ | ⟨-, -, hr⟩ | ⟨-, hf, -⟩ := execFpuLd80_cases s
  · exact absurd h hf
  · exact hr
  · exact absurd hf h'

theorem exec_fpuLd80_completes (h : completes s) : exec .fpuLd80 s = .next (s.secondRead.driveOut80 (loaded s)) := by
  obtain ⟨hfirst, hsecond⟩ := h
  obtain ⟨hf, -⟩ | ⟨-, hf, -⟩ | ⟨-, -, hr⟩ := execFpuLd80_cases s
  · exact absurd hfirst hf
  · exact absurd hsecond hf
  · exact hr

/-- The first access changes only what other agents write meanwhile. -/
theorem read_firstRead {q : Nat} (h : ¬ disturbs s.cfg s.port.first q) :
    Memory.read s.firstRead.mem q = Memory.read s.mem q :=
  readBytes_other (portAddr s) 8 s.mem (spares_of_not_disturbs h)

/-- A load changes only what other agents write meanwhile. -/
theorem read_of_fpuLd80 {t : State} {q : Nat} (hrun : exec .fpuLd80 s = .next t)
    (h : ¬ disturbs s.cfg s.port.first q) (h' : ¬ disturbs s.cfg s.port.second q) :
    Memory.read t.mem q = Memory.read s.mem q :=
  execFpuLd80_read_other hrun (spares_of_not_disturbs h) (spares_of_not_disturbs h')

/-- The frame of a load's two accesses. -/
theorem secondRead_settled (s : State) :
    s.secondRead.settled
      = { s with
          mem := s.secondRead.mem
          memPort := s.memPort ++ [Request.read (portAddr s) 8, .read (secondAddr s) 2] }.settled := by
  simp [State.secondRead, State.firstRead, State.memRead_fst, State.settled]

/-- A load that no other agent disturbs leaves guest memory alone. -/
theorem secondRead_mem_plain (h : s.port.first.disturbance = []) (h' : s.port.second.disturbance = []) :
    s.secondRead.mem = s.mem := by
  have hfirst : s.firstRead.mem = s.mem := by
    rw [State.firstRead, State.memRead_fst, h]
    exact readBytes_plain_fst s.cfg (portAddr s) 8 s.mem
  have hsecond : s.secondRead.mem = s.firstRead.mem := by
    rw [State.secondRead, State.memRead_fst, h']
    exact readBytes_plain_fst s.cfg (secondAddr s) 2 s.firstRead.mem
  exact hsecond.trans hfirst

/-- Each byte of the pattern is the byte in memory, where no other agent writes it up to its own access. -/
theorem loaded_byte {j : Nat} (hj : j < 10) (h : ¬ disturbs s.cfg s.port.first (transferAddr s j))
    (h' : 8 ≤ j → ¬ disturbs s.cfg s.port.second (transferAddr s j)) :
    (loaded s).extractLsb' (8 * j) 8 = Memory.read s.mem (transferAddr s j) := by
  by_cases hlow : j < 8
  · rw [← byteAddr_portAddr] at h ⊢
    exact (loaded_low_byte _ _ hlow).trans (readBytes_byte _ (le_refl 8) hlow s.mem (spares_of_not_disturbs h))
  · obtain ⟨k, rfl⟩ := Nat.exists_eq_add_of_le (Nat.le_of_not_lt hlow)
    have hk : k < 2 := by omega
    replace h' := h' (Nat.le_add_right 8 k)
    rw [← byteAddr_secondAddr_transfer] at h'
    rw [← read_firstRead h, ← byteAddr_secondAddr_transfer]
    exact (loaded_high_byte _ _ hk).trans (readBytes_byte _ (by decide) hk _ (spares_of_not_disturbs h'))

end

/-- Settles O44: the bytes of the pattern, and memory and the frame by what the two accesses leave. -/
theorem loadReturnsTheTenBytes : Obligations.LoadReturnsTheTenBytes :=
  fun s hc => ⟨_, exec_fpuLd80_completes hc, rfl, fun _ hj => loaded_byte hj,
    fun _ => read_of_fpuLd80 (exec_fpuLd80_completes hc), secondRead_mem_plain, secondRead_settled s⟩

/-- Settles O47: a load that fails at its first access has issued one request, at its second two. -/
theorem failedLoadsReportTheAccess : Obligations.FailedLoadsReportTheAccess := by
  refine fun s _ => ⟨fun h => ?_, fun h h' => ?_⟩
  · exact ⟨_, exec_fpuLd80_firstFails h, rfl, fun _ => read_firstRead, rfl⟩
  · have hrun := exec_fpuLd80_secondFails h h'
    exact ⟨_, hrun, rfl, fun _ => read_of_fpuLd80 hrun, secondRead_settled s⟩

/-! ### An 80-bit store (43_fpu_stack.md R197, R201) -/

/-- Which bytes of a write take their new value: all, unless it fails (20_memory.md R51). -/
def Answer.landed (ans : Answer) : BitVec 8 := ans.failure.getD (BitVec.allOnes 8)

/-- What the first access of a store leaves. -/
def State.firstWrite (s : State) : State :=
  (s.memWrite s.port.first (portAddr s) 8 (s.port.v.extractLsb' 0 64)).1

/-- What both accesses of a store leave. -/
def State.secondWrite (s : State) : State :=
  (s.firstWrite.memWrite s.port.second (secondAddr s) 2 ((s.port.v.extractLsb' 64 16).setWidth 64)).1

theorem Answer.landed_failed {ans : Answer} {landed : BitVec 8} (h : ans.failure = some landed) :
    ans.landed = landed := by
  simp [Answer.landed, h]

theorem Answer.landed_complete {ans : Answer} (h : ans.failure = none) {j : Nat} (hj : j < 8) :
    ans.landed.getLsbD j = true := by
  rw [Answer.landed, h, Option.getD_none, BitVec.getLsbD_allOnes, decide_eq_true hj]

/-- The bytes of one transfer lie at different addresses. -/
theorem transferAddr_ne {s : State} {j k : Nat} (hj : j < 10) (hk : k < 10) (h : j ≠ k) :
    transferAddr s j ≠ transferAddr s k := by
  rw [← byteAddr_portAddr, ← byteAddr_portAddr]
  exact fun e => h (byteAddr_inj (by omega) (by omega) e)

section
variable {s : State}

theorem exec_fpuSt80_firstFails (h : s.port.first.failure ≠ none) :
    exec .fpuSt80 s = .next (s.firstWrite.raise (.memFault (portAddr s) 8 .write)) := by
  obtain ⟨landed, hf, hr⟩ | ⟨landed, hf, -, -⟩ | ⟨hf, -, -⟩ := execFpuSt80_cases s
  · rw [← Answer.landed_failed hf] at hr
    exact hr
  · exact absurd hf h
  · exact absurd hf h

/-- A first access that completes has landed whole. -/
theorem firstWrite_complete (h : s.port.first.failure = none) :
    s.firstWrite = { s with
      mem := writeBytes s.cfg s.port.first.disturbance (BitVec.allOnes 8) (portAddr s) (s.port.v.extractLsb' 0 64) 8
        s.mem
      memPort := s.memPort ++ [.write (portAddr s) 8 (s.port.v.extractLsb' 0 64)] } := by
  rw [State.firstWrite, State.memWrite_fst, h, Option.getD_none]

theorem exec_fpuSt80_secondFails (h : s.port.first.failure = none) (h' : s.port.second.failure ≠ none) :
    exec .fpuSt80 s = .next (s.secondWrite.raise (.memFault (secondAddr s) 2 .write)) := by
  obtain ⟨landed, hf, -⟩ | ⟨landed, -, hf, hr⟩ | ⟨-, hf, -⟩ := execFpuSt80_cases s
  · simp [h] at hf
  · rw [State.secondWrite, firstWrite_complete h, State.memWrite_fst, hf]
    exact hr
  · exact absurd hf h'

theorem exec_fpuSt80_completes (h : completes s) : exec .fpuSt80 s = .next s.secondWrite.done := by
  obtain ⟨hfirst, hsecond⟩ := h
  obtain ⟨landed, hf, -⟩ | ⟨landed, -, hf, -⟩ | ⟨-, -, hr⟩ := execFpuSt80_cases s
  · simp [hfirst] at hf
  · simp [hsecond] at hf
  · rw [State.secondWrite, firstWrite_complete hfirst, State.memWrite_fst, hsecond]
    exact hr

/-- The first access keeps every byte that is neither one of its eight nor written by other agents. -/
theorem read_firstWrite_other {q : Nat} (hq : ∀ j, j < 8 → q ≠ transferAddr s j)
    (h : ¬ disturbs s.cfg s.port.first q) : Memory.read s.firstWrite.mem q = Memory.read s.mem q :=
  writeBytes_other _ (portAddr s) _ 8 s.mem (spares_of_not_disturbs h) fun j hj => byteAddr_portAddr s j ▸ hq j hj

/-- The second access keeps every byte that is neither one of its two nor written by other agents. -/
theorem read_secondWrite_other {q : Nat} (hq : ∀ j, j < 2 → q ≠ transferAddr s (8 + j))
    (h : ¬ disturbs s.cfg s.port.second q) : Memory.read s.secondWrite.mem q = Memory.read s.firstWrite.mem q :=
  writeBytes_other _ (secondAddr s) _ 2 s.firstWrite.mem (spares_of_not_disturbs h) fun j hj =>
    byteAddr_secondAddr_transfer s j ▸ hq j hj

/-- Each byte of the first access is new where it landed, else old. -/
theorem read_firstWrite {j : Nat} (hj : j < 8) (hwf : Memory.wf s.mem = true)
    (h : ¬ disturbs s.cfg s.port.first (transferAddr s j)) :
    Memory.read s.firstWrite.mem (transferAddr s j)
      = if s.port.first.landed.getLsbD j then s.port.v.extractLsb' (8 * j) 8
        else Memory.read s.mem (transferAddr s j) := by
  rw [← byteAddr_portAddr] at h ⊢
  rw [← stored_low_byte s.port.v hj]
  exact writeBytes_at _ _ _ (le_refl 8) hj (spares_of_not_disturbs h) hwf

/-- The second access keeps the bytes of the first. -/
theorem read_secondWrite_low {j : Nat} (hj : j < 8) (h : ¬ disturbs s.cfg s.port.second (transferAddr s j)) :
    Memory.read s.secondWrite.mem (transferAddr s j) = Memory.read s.firstWrite.mem (transferAddr s j) :=
  read_secondWrite_other (fun _ _ => transferAddr_ne (by omega) (by omega) (by omega)) h

/-- Each byte of the second access is new where it landed, else as the first access left it. -/
theorem read_secondWrite_high {j : Nat} (hj : j < 2) (hwf : Memory.wf s.mem = true)
    (h : ¬ disturbs s.cfg s.port.second (transferAddr s (8 + j))) :
    Memory.read s.secondWrite.mem (transferAddr s (8 + j))
      = if s.port.second.landed.getLsbD j then s.port.v.extractLsb' (8 * (8 + j)) 8
        else Memory.read s.firstWrite.mem (transferAddr s (8 + j)) := by
  rw [← byteAddr_secondAddr_transfer] at h ⊢
  rw [← stored_high_byte s.port.v hj]
  exact writeBytes_at _ _ _ (by decide) hj (spares_of_not_disturbs h) (writeBytes_wf _ _ _ _ _ hwf)

/-- A low byte of a store whose first access completes. -/
theorem read_secondWrite_low_stored {j : Nat} (hj : j < 8) (hc : s.port.first.failure = none)
    (hwf : Memory.wf s.mem = true) (h : ¬ disturbs s.cfg s.port.first (transferAddr s j))
    (h' : ¬ disturbs s.cfg s.port.second (transferAddr s j)) :
    Memory.read s.secondWrite.mem (transferAddr s j) = s.port.v.extractLsb' (8 * j) 8 := by
  rw [read_secondWrite_low hj h', read_firstWrite hj hwf h, if_pos (Answer.landed_complete hc hj)]

/-- Each byte of a store whose accesses complete. -/
theorem read_secondWrite_stored {j : Nat} (hj : j < 10) (hc : completes s) (hwf : Memory.wf s.mem = true)
    (h : j < 8 → ¬ disturbs s.cfg s.port.first (transferAddr s j))
    (h' : ¬ disturbs s.cfg s.port.second (transferAddr s j)) :
    Memory.read s.secondWrite.mem (transferAddr s j) = s.port.v.extractLsb' (8 * j) 8 := by
  obtain ⟨hfirst, hsecond⟩ := hc
  by_cases hlow : j < 8
  · exact read_secondWrite_low_stored hlow hfirst hwf (h hlow) h'
  · obtain ⟨k, rfl⟩ := Nat.exists_eq_add_of_le (Nat.le_of_not_lt hlow)
    rw [read_secondWrite_high (by omega) hwf h', if_pos (Answer.landed_complete hsecond (by omega))]

/-- A high byte of a store is new where it landed, else old where no other agent writes it in either access. -/
theorem read_secondWrite_high_landed {j : Nat} (hj : j < 2) (hwf : Memory.wf s.mem = true)
    (h : s.port.second.landed.getLsbD j = false → ¬ disturbs s.cfg s.port.first (transferAddr s (8 + j)))
    (h' : ¬ disturbs s.cfg s.port.second (transferAddr s (8 + j))) :
    Memory.read s.secondWrite.mem (transferAddr s (8 + j))
      = if s.port.second.landed.getLsbD j then s.port.v.extractLsb' (8 * (8 + j)) 8
        else Memory.read s.mem (transferAddr s (8 + j)) := by
  rw [read_secondWrite_high hj hwf h']
  split
  · rfl
  next hold =>
    exact read_firstWrite_other (fun i hi => transferAddr_ne (by omega) (by omega) (by omega))
      (h (Bool.eq_false_of_not_eq_true hold))

/-- A store changes only its own ten bytes and what other agents write meanwhile. -/
theorem read_of_fpuSt80 {t : State} {q : Nat} (hrun : exec .fpuSt80 s = .next t)
    (hq : ∀ j, j < 10 → q ≠ transferAddr s j) (h : ¬ disturbs s.cfg s.port.first q)
    (h' : ¬ disturbs s.cfg s.port.second q) : Memory.read t.mem q = Memory.read s.mem q :=
  execFpuSt80_read_other hrun hq (spares_of_not_disturbs h) (spares_of_not_disturbs h')

end

/-- The frame of a store's two accesses. -/
theorem secondWrite_settled (s : State) :
    s.secondWrite.settled
      = { s with
          mem := s.secondWrite.mem
          memPort := s.memPort ++ [Request.write (portAddr s) 8 (s.port.v.extractLsb' 0 64),
            .write (secondAddr s) 2 ((s.port.v.extractLsb' 64 16).setWidth 64)] }.settled := by
  simp [State.secondWrite, State.firstWrite, State.memWrite_fst, State.settled]

/-- Settles O45: the bytes stored, the bytes kept and the frame by what the two accesses leave. -/
theorem storeWritesTheTenBytes : Obligations.StoreWritesTheTenBytes :=
  fun s hc hwf => ⟨_, exec_fpuSt80_completes hc, rfl, fun _ hj => read_secondWrite_stored hj hc hwf,
    fun _ => read_of_fpuSt80 (exec_fpuSt80_completes hc), secondWrite_settled s⟩

/-- Settles O46: a store that fails at its first access leaves that one's bytes as they landed, at its second the whole
first access and the second's bytes as they landed. -/
theorem failedStoresLeaveOldOrNewBytes : Obligations.FailedStoresLeaveOldOrNewBytes := by
  refine fun s landed hwf => ⟨fun h => ?_, fun h h' => ?_⟩
  · rw [← Answer.landed_failed h]
    exact ⟨_, exec_fpuSt80_firstFails (by simp [h]), rfl, fun _ hj => read_firstWrite hj hwf,
      fun _ => read_firstWrite_other, rfl⟩
  · rw [← Answer.landed_failed h']
    have hrun := exec_fpuSt80_secondFails h (by simp [h'])
    exact ⟨_, hrun, rfl, fun _ hj => read_secondWrite_low_stored hj h hwf,
      fun _ hj => read_secondWrite_high_landed hj hwf, fun _ => read_of_fpuSt80 hrun, secondWrite_settled s⟩

/-! ### A store, then a load (43_fpu_stack.md R202) -/

/-- A pattern is its ten bytes. -/
theorem slot_ext {x y : Slot} (h : ∀ j, j < 10 → x.extractLsb' (8 * j) 8 = y.extractLsb' (8 * j) 8) : x = y := by
  refine BitVec.eq_of_getLsbD_eq fun i hi => ?_
  have hbit := congrArg (BitVec.getLsbD · (i % 8)) (h (i / 8) (by omega))
  simpa [BitVec.getLsbD_extractLsb', Nat.mod_lt, Nat.div_add_mod] using hbit

/-- Where a transfer lies depends on the parameters and the port `addr` alone. -/
theorem transferAddr_congr {s t : State} (hcfg : t.cfg = s.cfg) (haddr : t.port.addr = s.port.addr) (j : Nat) :
    transferAddr t j = transferAddr s j := by
  rw [transferAddr, transferAddr, portAddr, portAddr, hcfg, haddr]

/-- A load where the transfer of `s` lies answers the pattern whose bytes stand there, when no other agent writes them
meanwhile. -/
theorem loaded_eq {s t : State} {x : Slot} (hcfg : t.cfg = s.cfg) (haddr : t.port.addr = s.port.addr)
    (h : ∀ j, j < 10 →
      ¬ disturbs s.cfg t.port.first (transferAddr s j) ∧ ¬ disturbs s.cfg t.port.second (transferAddr s j))
    (hx : ∀ j, j < 10 → Memory.read t.mem (transferAddr s j) = x.extractLsb' (8 * j) 8) : loaded t = x := by
  refine slot_ext fun j hj => ?_
  have hat := transferAddr_congr hcfg haddr j
  obtain ⟨hfirst, hsecond⟩ := h j hj
  rw [← hcfg, ← hat] at hfirst hsecond
  exact (loaded_byte hj hfirst fun _ => hsecond).trans (hat ▸ hx j hj)

/-- Settles O48: byte by byte, the load reads what the store left. -/
theorem storeThenLoadReturnsThePattern : Obligations.StoreThenLoadReturnsThePattern := by
  intro s t m first second hc hwf ht hstore hbetween hfirst hsecond hload
  cases (exec_fpuSt80_completes hc).symm.trans ht
  refine ⟨_, exec_fpuLd80_completes ⟨hfirst, hsecond⟩, rfl, loaded_eq (s := s) rfl rfl hload fun j hj => ?_⟩
  obtain ⟨hstore1, hstore2⟩ := hstore j hj
  exact (hbetween j hj).trans (read_secondWrite_stored hj hc hwf (fun _ => hstore1) hstore2)

end Sys2Proof.Machine

/-! PROOFS. Faults and the boundary units (60_exceptions.md): how each way of ending leaves the fault log, what another
agent may issue, and what each command of the boundary units answers and writes. -/

namespace Sys2Proof.Machine

open Sys2Proof.Claims

/-! ### The outcomes of a command (60_exceptions.md R221, R222) -/

/-- No command writes the fault log on its way to its end. -/
theorem Writes.faultLog {i : Instr} {s u : State} (h : Writes s i u) : u.faultLog = s.faultLog := by
  induction h with
  | load _ hr ih => cases hr; exact ih
  | store _ hw ih => cases hw; exact ih
  | _ => simp

/-- Settles O56: each way of ending is one of the three outcomes, and only a model fault, raised before any write, is
logged. -/
theorem modelFaultsAreRecordedAndChangeNothing : Obligations.ModelFaultsAreRecordedAndChangeNothing := by
  intro i s t h
  cases exec_ends h with
  | done hw | driveOut hw | driveOut80 hw => exact .inl ⟨rfl, hw.faultLog⟩
  | memFault hi hw => exact .inr (.inl ⟨_, _, _, rfl, hw.faultLog, hi⟩)
  | modelFault => exact .inr (.inr ⟨_, rfl, rfl⟩)

/-! ### Commands of other agents (60_exceptions.md R228) -/

theorem mayIssue_irqOr (g : Agent) : mayIssue g .irqOr = true := by cases g <;> rfl

theorem mayIssue_other {i : Instr} (h : i ≠ .irqOr) : mayIssue .other i = false := decide_eq_false h

/-- A command that its agent may not issue is ILLEGAL_CMD. -/
theorem step_refused {s : State} {c : Command} {rest : List Event} {i : Instr} (hin : s.inputs = .command c :: rest)
    (hd : decode c.cmd = .ok i) (hm : mayIssue c.agent i = false) : step s = .next (presented s c rest).illegal := by
  simp [step, fetch_command hin, fetchCommand, hd, hm, State.present, presented]

/-- Settles O14: IRQ_OR is every agent's, and no other command is another agent's. -/
theorem otherAgentsMayOnlyOrIrq : Obligations.OtherAgentsMayOnlyOrIrq := by
  refine fun s c rest i hin hagent hd => ⟨fun hi => ?_, fun hi => ?_⟩
  · subst hi
    exact step_runs hin hd (mayIssue_irqOr c.agent)
  · rw [step_refused hin hd (hagent ▸ mayIssue_other hi)]
    exact endsInModelFault_illegal (presented s c rest)

/-! ### The interrupt request bits (60_exceptions.md R236 to R238) -/

section
variable {s : State} (hb : s.cfg.boundaryUnits = true)
include hb

theorem exec_irqOr : exec .irqOr s = .next { s with irq := s.irq ||| portA32 s }.done := onBoundary_present hb _

theorem exec_irqClr : exec .irqClr s = .next { s with irq := s.irq &&& ~~~portA32 s }.done := onBoundary_present hb _

theorem exec_irqRd : exec .irqRd s = .next (s.driveOut (s.irq.setWidth 64)) := onBoundary_present hb _

/-- A presented IRQ_OR, whoever issues it, takes its input and adds its bits. -/
theorem step_irqOr {c : Command} {rest : List Event} (hin : s.inputs = .command c :: rest)
    (hd : decode c.cmd = .ok .irqOr) :
    ∃ t, step s = .next t ∧ t.inputs = rest ∧ t.cfg = s.cfg ∧ t.irq = s.irq ||| c.a.setWidth 32 :=
  ⟨_, (step_runs hin hd (mayIssue_irqOr c.agent)).trans (exec_irqOr (s := presented s c rest) hb), rfl, rfl, rfl⟩

theorem step_irqOr_irqOr {c d : Command} {rest : List Event} (hin : s.inputs = .command c :: .command d :: rest)
    (hc : decode c.cmd = .ok .irqOr) (hd : decode d.cmd = .ok .irqOr) :
    ∃ t u, step s = .next t ∧ step t = .next u ∧ u.irq = s.irq ||| c.a.setWidth 32 ||| d.a.setWidth 32 := by
  obtain ⟨t, ht, htin, htcfg, htirq⟩ := step_irqOr hb hin hc
  obtain ⟨u, hu, -, -, huirq⟩ := step_irqOr (htcfg ▸ hb) htin hd
  exact ⟨t, u, ht, hu, htirq ▸ huirq⟩

end

/-- Settles O53: each command by its outcome; two IRQ_OR, in either order, leave one union. -/
theorem interruptRequestBits : Obligations.InterruptRequestBits := by
  refine fun s hb => ⟨exec_irqOr hb ▸ succeeds_done _, exec_irqClr hb ▸ succeeds_done _,
    exec_irqRd hb ▸ answers_driveOut s _, fun c d rest hc hd => ?_⟩
  obtain ⟨t, u, ht, hu, hirq⟩ :=
    step_irqOr_irqOr (s := { s with inputs := .command c :: .command d :: rest }) hb rfl hc hd
  obtain ⟨t', u', ht', hu', hirq'⟩ :=
    step_irqOr_irqOr (s := { s with inputs := .command d :: .command c :: rest }) hb rfl hd hc
  refine ⟨t, u, t', u', ht, hu, ht', hu', ?_, hirq⟩
  rw [hirq, hirq', BitVec.or_assoc, BitVec.or_comm (c.a.setWidth 32), ← BitVec.or_assoc]

/-! ### The feature register (60_exceptions.md R230, R231) -/

/-- The word of the mode flags has lma in bit 0 and svme in bit 1 (60_exceptions.md R231). -/
theorem modesWord_toNat (lma svme : Bool) :
    ((BitVec.ofBool svme ++ BitVec.ofBool lma).setWidth 64).toNat = lma.toNat + 2 * svme.toNat := by
  cases lma <;> cases svme <;> rfl

section
variable {s : State} (hb : s.cfg.boundaryUnits = true)
include hb

theorem exec_featLd :
    exec .featLd s = .next { s with
      feat := s.port.a
      lma := s.port.a.getLsbD s.cfg.lmaBit.toNat
      svme := s.port.a.getLsbD s.cfg.svmeBit.toNat }.done := onBoundary_present hb _

theorem exec_featRd_feat : exec (.featRd 0) s = .next (s.driveOut s.feat) := onBoundary_present hb _

theorem exec_featRd_modes :
    exec (.featRd 1) s = .next (s.driveOut ((BitVec.ofBool s.svme ++ BitVec.ofBool s.lma).setWidth 64)) :=
  onBoundary_present hb _

end

/-- Settles O50: each command by its outcome, and the word of the mode flags as a number. -/
theorem featureRegisterLoadsAndReads : Obligations.FeatureRegisterLoadsAndReads :=
  fun s hb => ⟨exec_featLd hb ▸ succeeds_done _, exec_featRd_feat hb ▸ answers_driveOut s _,
    _, exec_featRd_modes hb, rfl, rfl, modesWord_toNat s.lma s.svme⟩

/-! ### Pending work and the halt state (60_exceptions.md R232 to R235) -/

/-- The wake condition: a hardware request with IF set, or one of the three requests that IF does not mask
(60_exceptions.md R232). -/
theorem hasPendingWork_iff (s : State) :
    hasPendingWork s = true ↔
      (s.irq &&& s.cfg.irqHard ≠ 0 ∧ s.base.getLsbD 9 = true) ∨ s.irq &&& s.cfg.irqNmi ≠ 0
        ∨ s.irq &&& s.cfg.irqInit ≠ 0 ∨ s.irq &&& s.cfg.irqSipi ≠ 0 := by
  simp only [hasPendingWork, Bool.or_eq_true, Bool.and_eq_true, decide_eq_true_eq, or_assoc]

/-- A truth value on the port `out`. -/
theorem ofBool_setWidth_eq_ite {b : Bool} {p : Prop} [Decidable p] (h : b = true ↔ p) :
    (BitVec.ofBool b).setWidth 64 = if p then 1 else 0 := by
  cases b with
  | true => exact (if_pos (h.mp rfl)).symm
  | false => exact (if_neg fun hp => Bool.false_ne_true (h.mpr hp)).symm

section
variable {s : State} (hb : s.cfg.boundaryUnits = true)
include hb

theorem exec_hasWork : exec .hasWork s = .next (s.driveOut ((BitVec.ofBool (hasPendingWork s)).setWidth 64)) :=
  onBoundary_present hb _

theorem exec_haltSet : exec .haltSet s = .next { s with halted := true }.done := onBoundary_present hb _

theorem exec_chkHalt_running (h : s.halted = false) : exec .chkHalt s = .next (s.driveOut 0) :=
  (onBoundary_present hb _).trans (by simp [h])

theorem exec_chkHalt_wakes (h : s.halted = true) (hw : hasPendingWork s = true) :
    exec .chkHalt s = .next ({ s with halted := false }.driveOut 0) :=
  (onBoundary_present hb _).trans (by simp [h, hw])

theorem exec_chkHalt_halted (h : s.halted = true) (hw : hasPendingWork s = false) :
    exec .chkHalt s = .next (s.driveOut 1) :=
  (onBoundary_present hb _).trans (by simp [h, hw])

/-- The second CHK_HALT after a wake finds the block running. -/
theorem runAll_chkHalt_chkHalt_wakes (h : s.halted = true) (hw : hasPendingWork s = true) :
    runAll [.chkHalt, .chkHalt] s = .next (({ s with halted := false }.driveOut 0).driveOut 0) :=
  (runAll_pair (exec_chkHalt_wakes hb h hw)).trans (exec_chkHalt_running hb rfl)

end

/-- Settles O51: HAS_WORK answers the wake condition, which is the four conditions. -/
theorem hasWorkTestsTheFourConditions : Obligations.HasWorkTestsTheFourConditions := by
  intro s hb
  rw [exec_hasWork hb, ofBool_setWidth_eq_ite (hasPendingWork_iff s)]
  exact answers_driveOut s _

/-- Settles O52: HALT_SET, and CHK_HALT running, waking, after a wake, and halted. -/
theorem haltAndWake : Obligations.HaltAndWake := by
  refine fun s hb => ⟨exec_haltSet hb ▸ succeeds_done _, fun h => ?_, fun h hw => ⟨?_, ?_⟩, fun h hw => ?_⟩
  · exact exec_chkHalt_running hb h ▸ answers_driveOut s 0
  · exact exec_chkHalt_wakes hb h hw ▸ answers_driveOut { s with halted := false } 0
  · exact ⟨_, runAll_chkHalt_chkHalt_wakes hb h hw, rfl, rfl, rfl⟩
  · exact exec_chkHalt_halted hb h hw ▸ answers_driveOut s 1

end Sys2Proof.Machine

/-! PROOFS. Reset applied again (70_reset_and_hazards.md R260): what the platform's reset leaves of the block. -/

namespace Sys2Proof.Machine

/-- A reset leaves no fault on the port, whatever fault stood there. -/
@[simp] theorem State.resetAgain_fault (s : State) : s.resetAgain.fault = none := rfl

/-- A reset differs from a new block only in what is not the block's, and in what the undriven result ports hold. -/
theorem settled_resetAgain (s : State) :
    s.resetAgain.settled = { State.atReset s.cfg with mem := s.mem, inputs := s.inputs, port := s.port }.settled := rfl

theorem step_platformReset {s : State} {rest : List Event} (h : s.inputs = .platformReset :: rest) :
    step s = .next (State.resetAgain { s with inputs := rest }) := by
  simp [step, fetch, h]

/-- Settles O2: the step is the platform's reset, with the input taken. -/
theorem resetAppliedAgainStartsANewBlock : Obligations.ResetAppliedAgainStartsANewBlock :=
  fun s rest h =>
    ⟨_, step_platformReset h, State.resetAgain_fault _, settled_resetAgain { s with inputs := rest }⟩

end Sys2Proof.Machine
